-- ==== Sys2Proof/Word.lean ====
section
/-! DEFINITION. The word types of the module: a byte of a store, and the 32-bit and 64-bit words that registers, instructions and records are made of (R9, R10, R548). -/
namespace Sys2Proof

/-- One byte of module memory, of an engine store or of a panel store. -/
abbrev Byte := BitVec 8

/-- A 32-bit register or record word. -/
abbrev W32 := BitVec 32

/-- A 64-bit scalar register or instruction word. -/
abbrev W64 := BitVec 64

end Sys2Proof
end

