-- ==== Sys2Proof/Syntax.lean ====
section
/-! DEFINITION. The commands of the module: one constructor per row of spec/opcode_table.json, with the row's operands. The first 120 rows are an engine's instructions and the completions of its units; n names a logical engine (R22). -/
namespace Sys2Proof

/-- The fields of a Format R instruction word below the opcode (R204). -/
structure RFmt where
  d : BitVec 6
  a : BitVec 6
  b : BitVec 6
  c : BitVec 6
  pen : BitVec 1
  p : BitVec 3
  pz : BitVec 1
  func : BitVec 11
  mod : BitVec 16
  deriving DecidableEq, Repr, Inhabited

/-- The fields of a Format I instruction word (R204). -/
structure IFmt where
  d : BitVec 6
  a : BitVec 6
  imm : BitVec 44
  deriving DecidableEq, Repr, Inhabited

/-- The fields of a Format B instruction word (R204); `r1` and `r2` are its reserved bits [51:50] and [37:32]. -/
structure BFmt where
  cond : BitVec 4
  r1 : BitVec 2
  a : BitVec 6
  b : BitVec 6
  r2 : BitVec 6
  mask : BitVec 16
  off : BitVec 16
  deriving DecidableEq, Repr, Inhabited

/-- The fields of MLOAD (R213). -/
structure MloadFmt where
  bank : BitVec 1
  ori : BitVec 1
  fmt : BitVec 4
  a : BitVec 6
  s : BitVec 6
  smode : BitVec 3
  stride : BitVec 12
  rsv : BitVec 23
  deriving DecidableEq, Repr, Inhabited

/-- The fields of MMA (R214). -/
structure MmaFmt where
  t : BitVec 3
  bank : BitVec 1
  ori : BitVec 1
  mm1 : BitVec 7
  a : BitVec 6
  s : BitVec 6
  fmt : BitVec 4
  smode : BitVec 3
  stride : BitVec 12
  rlog : BitVec 4
  rsv : BitVec 9
  deriving DecidableEq, Repr, Inhabited

/-- The fields of MZERO and MPRE (R216). -/
structure MopenFmt where
  t : BitVec 3
  mode : BitVec 1
  seglen : BitVec 3
  rmode : BitVec 3
  leafLog : BitVec 5
  treeLog : BitVec 5
  a : BitVec 6
  pr : BitVec 6
  pfmt : BitVec 2
  shape : BitVec 2
  pstride : BitVec 12
  rsv : BitVec 8
  deriving DecidableEq, Repr, Inhabited

/-- The fields of MDRAIN (R218). -/
structure MdrainFmt where
  t : BitVec 3
  pt : BitVec 1
  tap : BitVec 1
  la : BitVec 2
  a : BitVec 6
  rsv : BitVec 43
  deriving DecidableEq, Repr, Inhabited

/-- An identity frame (R360). -/
structure IdFrame where
  modid : Nat
  port : Nat
  verMin : Nat
  verMax : Nat
  fwdOnly : Bool
  quar : Bool
  inc : Nat
  machine : Nat
  serial : W64
  deriving DecidableEq, Repr, Inhabited

/-- A census entry (R539). -/
structure CensusEntry where
  modid : Nat
  state : Nat
  stackCount : Nat
  active : Nat
  misplaced : Nat
  down : Nat
  serial : W64
  bootMs : Nat
  deriving DecidableEq, Repr, Inhabited

/-- What the surroundings and the silicon decide during a self-boot (R512 to R515): the SLOT_W straps, for each firmware image
and copy whether it is accepted (0) or why not (1 signature, 2 version), the stacks that fail training with their phase, the
slots (52p + s) whose Calico test fails with the failing phase, and the milliseconds taken. -/
structure BootFacts where
  slotW : BitVec 3 := 0#3
  linkA : Nat := 0
  linkB : Nat := 0
  collA : Nat := 0
  collB : Nat := 0
  trainFail : List (Nat × Nat) := []
  calFail : List (Nat × Nat) := []
  bootMs : Nat := 14000
  deriving DecidableEq, Repr, Inhabited

/-- A register access that is not answered: its offset and size, and which of the halves of 4 bytes are late, the lower one and the higher one (R548,
R567). -/
structure LateAccess where
  off : Nat
  size : Nat
  lo : Bool
  hi : Bool
  deriving DecidableEq, Repr

/-- What a service frame meets (R523, R524, R443, R325): telemetry, the offset measured to the parent in ps before MT_ASYM is taken off, the order of the first
dropped work if any, corrected errors (SRAM: kind 1 engine, 2 panel, 3 instruction memory, with store number and offset; stacks:
stack and offset), uncorrectable words and granules (SRAM, DRAM local addresses), parity errors in registers (slot, register; R444),
on data paths (path of PATH_PARITY, address; R445), and in tiles, banks or buffers (slot, tile, KIND 2 or 3; R448). DESIGN CHOICE, log entry 8. -/
structure FrameFacts where
  watts : Nat := 0
  vin : Nat := 4800
  tj : Nat := 0
  sensor : Nat := 0
  off : Option Int := none
  late : Option Nat := none
  sramCe : List (Nat × Nat × Nat) := []
  sramUe : List (Nat × Nat × Nat) := []
  stackCe : List (Nat × Nat) := []
  dramUe : List Nat := []
  regPar : List (Nat × Nat) := []
  pathPar : List (Nat × Nat) := []
  tilePar : List (Nat × Nat × Nat) := []
  deriving DecidableEq, Repr, Inhabited

/-- A debug unlock token (R514): the serial number and the challenge it is bound to, and whether its signature verifies. -/
structure UnlockToken where
  serial : W64
  challenge : Nat
  signed : Bool
  deriving DecidableEq, Repr, Inhabited

/-- A time frame (R531): a frame that a neighbour sends and this module answers; the answer to a frame of this module, with the
four timestamps in ps; or the first time exchange of R527, with the neighbour's time in ns and whether it is LOCKED. -/
inductive TimeFacts where
  | ask (t1 : Nat)
  | answer (t1 t2 t3 t4 : Int)
  | first (time : Nat) (locked : Bool)
  deriving DecidableEq, Repr, Inhabited

/-- The commands: those with operands in the order of the table, then those without. -/
inductive Instr where
  /-- ADD (R221): Scalar add of sA and sB modulo 2^64 into sD. -/
  | add (n : Nat) (f : RFmt)
  /-- SUB (R221): Scalar subtract of sB from sA modulo 2^64 into sD. -/
  | sub (n : Nat) (f : RFmt)
  /-- AND (R221): Bitwise AND of two scalar registers. -/
  | and (n : Nat) (f : RFmt)
  /-- OR (R221): Bitwise OR of two scalar registers. -/
  | or (n : Nat) (f : RFmt)
  /-- XOR (R221): Bitwise XOR of two scalar registers. -/
  | xor (n : Nat) (f : RFmt)
  /-- SHL (R221): Shifts sA left by sB mod 64. -/
  | shl (n : Nat) (f : RFmt)
  /-- SHR (R221): Shifts sA right logically by sB mod 64. -/
  | shr (n : Nat) (f : RFmt)
  /-- SRA (R221): Shifts sA right arithmetically by sB mod 64. -/
  | sra (n : Nat) (f : RFmt)
  /-- MUL (R221): Low 64 bits of the scalar product. -/
  | mul (n : Nat) (f : RFmt)
  /-- MULHU (R221): High 64 bits of the unsigned scalar product. -/
  | mulhu (n : Nat) (f : RFmt)
  /-- MIN (R221): Signed minimum of two scalar registers. -/
  | min (n : Nat) (f : RFmt)
  /-- MAX (R221): Signed maximum of two scalar registers. -/
  | max (n : Nat) (f : RFmt)
  /-- SLT (R221): Sets sD to 1 when sA is less than sB, signed. -/
  | slt (n : Nat) (f : RFmt)
  /-- SLTU (R221): Sets sD to 1 when sA is less than sB, unsigned. -/
  | sltu (n : Nat) (f : RFmt)
  /-- ADDI (R221): Adds a signed immediate to sA. -/
  | addi (n : Nat) (f : IFmt)
  /-- ANDI (R221): ANDs sA with an immediate. -/
  | andi (n : Nat) (f : IFmt)
  /-- ORI (R221): ORs sA with an immediate. -/
  | ori (n : Nat) (f : IFmt)
  /-- XORI (R221): XORs sA with an immediate. -/
  | xori (n : Nat) (f : IFmt)
  /-- SHLI (R221): Shifts sA left by IMM[5:0]. -/
  | shli (n : Nat) (f : IFmt)
  /-- SHRI (R221): Shifts sA right logically by IMM[5:0]. -/
  | shri (n : Nat) (f : IFmt)
  /-- SRAI (R221): Shifts sA right arithmetically by IMM[5:0]. -/
  | srai (n : Nat) (f : IFmt)
  /-- LI (R221): Loads a sign-extended immediate into sD. -/
  | li (n : Nat) (f : IFmt)
  /-- LIH (R221): Replaces bits [63:44] of sA with IMM[19:0] into sD. -/
  | lih (n : Nat) (f : IFmt)
  /-- FADD (R221): binary32 scalar add with RNE. -/
  | fadd (n : Nat) (f : RFmt)
  /-- FSUB (R221): binary32 scalar subtract with RNE. -/
  | fsub (n : Nat) (f : RFmt)
  /-- FMUL (R221): binary32 scalar multiply with RNE. -/
  | fmul (n : Nat) (f : RFmt)
  /-- FFMA (R221): binary32 fused multiply-add with one RNE rounding. -/
  | ffma (n : Nat) (f : RFmt)
  /-- FMIN (R221): IEEE minimum of two binary32 scalars. -/
  | fmin (n : Nat) (f : RFmt)
  /-- FMAX (R221): IEEE maximum of two binary32 scalars. -/
  | fmax (n : Nat) (f : RFmt)
  /-- FCVT_SI (R221): Converts binary32 to a 64-bit integer with RTZ and clamping. -/
  | fcvtSi (n : Nat) (f : RFmt)
  /-- FCVT_IS (R221): Converts a 64-bit integer to binary32 with RNE. -/
  | fcvtIs (n : Nat) (f : RFmt)
  /-- LD (R221): Loads 8 bytes from the engine store into sD. -/
  | ld (n : Nat) (f : IFmt)
  /-- LDW (R221): Loads 4 bytes zero-extended from the engine store. -/
  | ldw (n : Nat) (f : IFmt)
  /-- ST (R221): Stores 8 bytes of sD to the engine store. -/
  | st (n : Nat) (f : IFmt)
  /-- STW (R221): Stores bits [31:0] of sD to the engine store. -/
  | stw (n : Nat) (f : IFmt)
  /-- BR (R225): Branches on a comparison condition of sA and sB. -/
  | br (n : Nat) (f : BFmt)
  /-- BRF (R226): Branches on NSTAT masked by MASK. -/
  | brf (n : Nat) (f : BFmt)
  /-- JMP (R227): Branches unconditionally to PC + OFF. -/
  | jmp (n : Nat) (f : BFmt)
  /-- LOOP (R228): Checks nesting, latches the count and activates a hardware loop. -/
  | loop (n : Nat) (f : BFmt)
  /-- LOOP_BRK (R231): Leaves the innermost hardware loop on a condition. -/
  | loopBrk (n : Nat) (f : BFmt)
  /-- RDLC (R229): Reads the iteration index of a loop depth. -/
  | rdlc (n : Nat) (f : RFmt)
  /-- KEND (R233): Ends the kernel after all earlier work, records and transfers complete. -/
  | kend (n : Nat) (f : RFmt)
  /-- NOP (R221): Does nothing. -/
  | nop (n : Nat) (f : RFmt)
  /-- RDFEAT (R241): Reads a feature register into sD. -/
  | rdfeat (n : Nat) (f : IFmt)
  /-- RDNS (R211): Reads NSTAT after the last NSTAT-setting instruction completes. -/
  | rdns (n : Nat) (f : RFmt)
  /-- SETCTX (R207): Sets OPID, STEP and EBASE of the numeric context. -/
  | setctx (n : Nat) (f : RFmt)
  /-- RDCTX (R221): Reads OPID:STEP or EBASE of the numeric context. -/
  | rdctx (n : Nat) (f : RFmt)
  /-- SHRD (R234): Reads the step-health word, optionally waiting for the slice-wide word. -/
  | shrd (n : Nat) (f : RFmt)
  /-- SHRD_RETURN (R234): A waiting SHRD returns when the slice-wide word of its step is published. -/
  | shrdReturn (n : Nat)
  /-- SHSET (R235): ORs bits into the step-health word of CTX.STEP. -/
  | shset (n : Nat) (f : RFmt)
  /-- RDTIME (R526): Reads machine time in nanoseconds. -/
  | rdtime (n : Nat) (f : RFmt)
  /-- VADD_F (R57): Per-lane binary32 vector add. -/
  | vaddF (n : Nat) (f : RFmt)
  /-- VSUB_F (R57): Per-lane binary32 vector subtract. -/
  | vsubF (n : Nat) (f : RFmt)
  /-- VMUL_F (R57): Per-lane binary32 vector multiply. -/
  | vmulF (n : Nat) (f : RFmt)
  /-- VFMA_F (R57): Per-lane binary32 fused multiply-add. -/
  | vfmaF (n : Nat) (f : RFmt)
  /-- VMIN_F (R221): Per-lane IEEE minimum. -/
  | vminF (n : Nat) (f : RFmt)
  /-- VMAX_F (R221): Per-lane IEEE maximum. -/
  | vmaxF (n : Nat) (f : RFmt)
  /-- VSGN_F (R56): Per-lane abs, negate or copySign changing only the sign bit. -/
  | vsgnF (n : Nat) (f : RFmt)
  /-- VCMP_F (R221): Per-lane binary32 comparison into a predicate. -/
  | vcmpF (n : Nat) (f : RFmt)
  /-- VADD_I (R221): Per-lane 32-bit integer add. -/
  | vaddI (n : Nat) (f : RFmt)
  /-- VSUB_I (R221): Per-lane 32-bit integer subtract. -/
  | vsubI (n : Nat) (f : RFmt)
  /-- VMUL_I (R221): Per-lane 32-bit integer multiply. -/
  | vmulI (n : Nat) (f : RFmt)
  /-- VAND (R221): Per-lane bitwise AND. -/
  | vand (n : Nat) (f : RFmt)
  /-- VOR (R221): Per-lane bitwise OR. -/
  | vor (n : Nat) (f : RFmt)
  /-- VXOR (R221): Per-lane bitwise XOR. -/
  | vxor (n : Nat) (f : RFmt)
  /-- VSHL_I (R221): Per-lane left shift. -/
  | vshlI (n : Nat) (f : RFmt)
  /-- VSHR_I (R221): Per-lane logical or arithmetic right shift. -/
  | vshrI (n : Nat) (f : RFmt)
  /-- VCMP_I (R221): Per-lane integer comparison into a predicate. -/
  | vcmpI (n : Nat) (f : RFmt)
  /-- VSEL (R221): Selects lanes of vA or vB by a predicate. -/
  | vsel (n : Nat) (f : RFmt)
  /-- VBCAST (R221): Broadcasts sA[31:0] to every lane. -/
  | vbcast (n : Nat) (f : RFmt)
  /-- VIOTA (R221): Writes sA + i to lane i. -/
  | viota (n : Nat) (f : RFmt)
  /-- VGET (R221): Reads one lane into a scalar register. -/
  | vget (n : Nat) (f : RFmt)
  /-- VPUT (R221): Writes one lane from a scalar register. -/
  | vput (n : Nat) (f : RFmt)
  /-- PLOG (R221): Logical operation on predicate registers. -/
  | plog (n : Nat) (f : RFmt)
  /-- VLD (R221): Loads 512 bytes into a vector register. -/
  | vld (n : Nat) (f : IFmt)
  /-- VST (R221): Stores a vector register as 512 bytes. -/
  | vst (n : Nat) (f : IFmt)
  /-- VLDC (R221): Loads 128 elements, converts exactly to binary32 and applies scales. -/
  | vldc (n : Nat) (f : RFmt)
  /-- VSTC (R205): Quantises a vector to a storage format with scale bytes and a numeric record. -/
  | vstc (n : Nat) (f : RFmt)
  /-- VRED_ADD (R121): Sums active lanes in pairwise order into a scalar. -/
  | vredAdd (n : Nat) (f : RFmt)
  /-- VRED_MAX (R221): Maximum over active lanes. -/
  | vredMax (n : Nat) (f : RFmt)
  /-- VRED_MIN (R221): Minimum over active lanes. -/
  | vredMin (n : Nat) (f : RFmt)
  /-- VRED_ADDI (R221): Exact sum of signed 32-bit lanes. -/
  | vredAddi (n : Nat) (f : RFmt)
  /-- VRED_CNT (R221): Counts active lanes of a chosen class. -/
  | vredCnt (n : Nat) (f : RFmt)
  /-- VCVT (R82): Converts lanes between formats and writes a numeric record. -/
  | vcvt (n : Nat) (f : RFmt)
  /-- LSUM (R123): Adds active lanes as binary32 terms to a long accumulator. -/
  | lsum (n : Nat) (f : RFmt)
  /-- LSUM_P (R123): Adds exact lane products as terms to a long accumulator. -/
  | lsumP (n : Nat) (f : RFmt)
  /-- LSUM_S (R123): Adds a scalar binary32 term to a long accumulator. -/
  | lsumS (n : Nat) (f : RFmt)
  /-- LSUM_I (R123): Adds a signed 64-bit term to a long accumulator. -/
  | lsumI (n : Nat) (f : RFmt)
  /-- LSCOMB (R124): Combines two long accumulators. -/
  | lscomb (n : Nat) (f : RFmt)
  /-- LSCLR (R221): Clears a long accumulator. -/
  | lsclr (n : Nat) (f : RFmt)
  /-- LSST (R127): Spills a long accumulator as 96 bytes. -/
  | lsst (n : Nat) (f : RFmt)
  /-- LSLD (R127): Loads a long accumulator from 96 bytes. -/
  | lsld (n : Nat) (f : RFmt)
  /-- LSRD (R126): Reads out a long accumulator to binary32, ZF24 or ZF16. -/
  | lsrd (n : Nat) (f : RFmt)
  /-- VRAND (R262): Fills lanes with ZCG-64 output. -/
  | vrand (n : Nat) (f : RFmt)
  /-- VROTC (R222): Rotates a block of stored rows along columns in place. -/
  | vrotc (n : Nat) (f : RFmt)
  /-- OPT_M2 (R270): Two-moment optimiser update from a descriptor. -/
  | optM2 (n : Nat) (f : RFmt)
  /-- OPT_M1 (R270): One-moment optimiser update from a descriptor. -/
  | optM1 (n : Nat) (f : RFmt)
  /-- OPT_SGN (R270): Sign-momentum optimiser update from a descriptor. -/
  | optSgn (n : Nat) (f : RFmt)
  /-- MLOAD (R174): Loads a stationary bank from the engine store in ROW or COL orientation. -/
  | mload (n : Nat) (f : MloadFmt)
  /-- MLOAD_COMPLETE (R195): A stationary bank becomes ready when its load completes. -/
  | mloadComplete (n bank : Nat)
  /-- MMA (R176): Streams rows through the array and adds chunk values to an open tile. -/
  | mma (n : Nat) (f : MmaFmt)
  /-- MMA_PASS_COMPLETE (R180): An array pass leaves the array and its chunks enter the tile's running sum and stack. -/
  | mmaPassComplete (n : Nat)
  /-- MZERO (R179): Opens an accumulator tile with no preload. -/
  | mzero (n : Nat) (f : MopenFmt)
  /-- MPRE (R183): Opens an accumulator tile recording a preload. -/
  | mpre (n : Nat) (f : MopenFmt)
  /-- MDRAIN (R185): Drains and closes a tile through stages D0 to D10. -/
  | mdrain (n : Nat) (f : MdrainFmt) (chk : Option Nat)
  /-- MDRAIN_COMPLETE (R90): A drain writes its last row and numeric record and signals completion. -/
  | mdrainComplete (n tile : Nat)
  /-- DMA_G (R170): Starts a tagged copy from a global address into the engine store. -/
  | dmaG (n : Nat) (f : RFmt)
  /-- DMA_P (R170): Starts a tagged copy from the engine store to a global address. -/
  | dmaP (n : Nat) (f : RFmt)
  /-- DMA_W (R170): Waits until the transfer under a tag completes. -/
  | dmaW (n : Nat) (f : RFmt)
  /-- DMA_TRANSFER_COMPLETE (R170): A DMA transfer completes or stops at a memory fault. -/
  | dmaTransferComplete (n tag : Nat)
  /-- EVWAIT (R315): Waits until an event counter reaches a threshold. -/
  | evwait (n : Nat) (f : RFmt)
  /-- EVWAIT_END (R315): A waiting EVWAIT ends as its counter reaches the threshold. -/
  | evwaitEnd (n : Nat)
  /-- EVWAIT_EXPIRED (R315): An EVWAIT exceeds DSP_EVWAIT_LIMIT and faults the kernel. -/
  | evwaitExpired (n : Nat)
  /-- EVSIG (R224): Adds to a local or remote event counter after all earlier work completes. -/
  | evsig (n : Nat) (f : RFmt)
  /-- FENCE (R221): Waits for every earlier instruction and DMA transfer. -/
  | fence (n : Nat) (f : RFmt)
  /-- JPUSH (R249): Pushes a piece to the Jersey stack. -/
  | jpush (n : Nat) (f : RFmt)
  /-- JPOP (R250): Pops or keeps a piece from the Jersey stack. -/
  | jpop (n : Nat) (f : RFmt)
  /-- TPUSH (R249): Pushes a piece to the Tulle store. -/
  | tpush (n : Nat) (f : RFmt)
  /-- TPOP (R250): Pops or keeps a piece from the Tulle store. -/
  | tpop (n : Nat) (f : RFmt)
  /-- PANEL_TREE_COMBINE (R433): Once every engine of a group has drained, the panel sequencer combines the parts and runs D2 onwards. -/
  | panelTreeCombine (g : Nat)
  /-- TASK_READ (R292): Dispatch reads the next descriptor of a queue once TAIL covers it. -/
  | taskRead (q : Nat)
  /-- TASK_READY (R296): A read task's waits are satisfied and it becomes ready. -/
  | taskReady (q idx : Nat)
  /-- TASK_PLACE (R297): Dispatch places a ready task on a free engine, starting its clock and loading its image. -/
  | taskPlace (q idx n : Nat)
  /-- KERNEL_START (R300): A kernel starts on an engine with its registers set. -/
  | kernelStart (n : Nat)
  /-- ENGINE_CLOCK_STOP (R305): An engine idle for 1 µs stops its fast clock. -/
  | engineClockStop (p s : Nat)
  /-- TASK_COMPLETE (R306): The last kernel of a task ends; dispatch writes the record, applies signals and updates indices. -/
  | taskComplete (q idx : Nat)
  /-- QUEUE_ENABLE (R285): ENABLE command reads and checks a Queue Table entry and activates the queue. -/
  | queueEnable (q : Nat)
  /-- QUEUE_DISABLE (R606): DISABLE command puts a queue into DRAINING. -/
  | queueDisable (q : Nat)
  /-- QUEUE_RESUME (R284): RESUME command returns a HALTED queue to ACTIVE. -/
  | queueResume (q : Nat)
  /-- DSP_DOORBELL (R290): A doorbell write advances a queue's TAIL. -/
  | dspDoorbell (q tail : Nat)
  /-- PROTECTED_WRITE (R331): A write to a protected page passes the filter, copying the page to the shadow pool when needed. -/
  | protectedWrite (init num addr : Nat) (data : List Byte)
  /-- PATROL_SCRUB (R323): A patrol-scrub read corrects and writes back stack data. -/
  | patrolScrub (i off res : Nat) (pass : Bool)
  /-- STACK_PHY_LOSS (R326): A stack PHY fails to retrain or exceeds the uncorrectable rate and the stack becomes FAILED. -/
  | stackPhyLoss (i cause : Nat)
  /-- LG_SHSET (R499): Joins software bits into the step-health word of EP_STEP. -/
  | lgShset (v : Nat)
  /-- LG_HACK_WRITE (R487): Advances the host mirror consumer index and releases held records. -/
  | lgHackWrite (v : Nat)
  /-- RNG_KAT_RUN (R266): Runs the ZCG-64 known-answer test on every unit. -/
  | rngKatRun (wrong : List (Nat × W64 × W64))
  /-- REDUCE_SCATTER (R416): Sums shards by the shard tree and writes each hosted output block. -/
  | reduceScatter (c : Nat)
  /-- ALL_GATHER (R420): Copies every shard's block to every member. -/
  | allGather (c : Nat)
  /-- ALL_REDUCE (R418): Sums shards and writes the full result on every member. -/
  | allReduce (c : Nat)
  /-- ALL_TO_ALL (R415): Exchanges blocks between all shards. -/
  | allToAll (c : Nat)
  /-- BROADCAST (R415): Copies the root shard's data to every member. -/
  | broadcast (c : Nat)
  /-- SEND (R422): Sends converted data to the matching RECV on a peer rank. -/
  | send (c : Nat)
  /-- RECV (R422): Receives data from a peer rank's matching SEND. -/
  | recv (c : Nat)
  /-- PERMUTE (R423): Moves shards to the ranks of a new map. -/
  | permute (c : Nat)
  /-- LSUM_ALL (R424): Combines long accumulators exactly across the group. -/
  | lsumAll (c : Nat)
  /-- NORM (R424): Combines norm partials and forms the clip factor. -/
  | norm (c : Nat)
  /-- COLL_OP_COMPLETE (R426): An operation's outputs, record and acknowledgements are done and the engine writes its completion. -/
  | collOpComplete (c idx : Nat)
  /-- COLL_TIMEOUT (R428): An operation exceeds OP_LIMIT and ends in error. -/
  | collTimeout (c idx : Nat)
  /-- CONTEXT_ENABLE (R408): ENABLE command reads and checks a Context Table entry. -/
  | contextEnable (c : Nat)
  /-- CONTEXT_DISABLE (R408): DISABLE command drains a context. -/
  | contextDisable (c : Nat)
  /-- CONTEXT_RESUME (R408): RESUME command reactivates a halted context. -/
  | contextResume (c : Nat)
  /-- CE_DOORBELL (R410): A doorbell write advances a context's TAIL. -/
  | ceDoorbell (c tail : Nat)
  /-- PORT_TRAINING_START (R359): A DOWN port starts training after reset or its retry interval. -/
  | portTrainingStart (i : Nat)
  /-- LANES_LOCKED (R359): All four lanes lock and the port enters IDENT. -/
  | lanesLocked (i : Nat)
  /-- TRAINING_FAILURE (R359): Training fails after tRETRAIN and the port returns to DOWN. -/
  | trainingFailure (i : Nat)
  /-- IDENTITY_FRAME (R361): A peer identity frame is tested and the port goes UP, MISPLACED or DOWN. -/
  | identityFrame (i : Nat) (f : IdFrame)
  /-- HEARTBEAT_SEND (R363): A port sends a heartbeat every tHB. -/
  | heartbeatSend (i : Nat)
  /-- HEARTBEAT_FRAME (R363): A valid heartbeat arrives on a port. -/
  | heartbeatFrame (i : Nat)
  /-- HEARTBEAT_LOSS (R363): Four windows pass without a valid heartbeat and the port goes DOWN. -/
  | heartbeatLoss (i : Nat)
  /-- LANE_LOCK_LOSS (R359): A lane loses lock and the port goes DOWN. -/
  | laneLockLoss (i lane : Nat)
  /-- MASK_FRAME (R371): A peer's slice mask arrives and the link uses the AND of both. -/
  | maskFrame (i : Nat) (mask : BitVec 256)
  /-- PACKET_ARRIVAL (R366): A packet arrives at a router input and is checked and buffered. -/
  | packetArrival (i : Nat) (hdr payload : List Byte)
  /-- FAB_LIFE_DROP (R382): A packet older than RT_LIFE is discarded. -/
  | fabLifeDrop (i k : Nat)
  /-- FAB_GAUZE_DROP (R387): A Gauze packet held too long or blocking native traffic is discarded. -/
  | fabGauzeDrop (i : Nat)
  /-- INJECTION_WAIT_EXPIRY (R395): A message waiting 10 µs for injection is injected as TC0. -/
  | injectionWaitExpiry (dst seq : Nat)
  /-- MESSAGE_COMPLETE (R388): All packets of a message have arrived at the destination. -/
  | messageComplete (src seq : Nat)
  /-- RETRANSMISSION_TIMER (R391): No answer arrives in time and the message is resent or ends with NO_ACK. -/
  | retransmissionTimer (dst seq : Nat)
  /-- RT_INJECT_WRITE (R398): Sets or clears the injection hold. -/
  | rtInjectWrite (v : Nat)
  /-- ROUTER_RESET_RELEASE (R516): The router island leaves reset with a new incarnation and its pages are enabled. -/
  | routerResetRelease (linkA linkB : Nat)
  /-- SLOT_FENCE (R458): At the slot's kernel boundary the module fences it and substitutes a reserve. -/
  | slotFence (p s : Nat)
  /-- TRIAL_ENTRY (R453): At the kernel boundary after a stage-2 event the slot enters TRIAL on a reserve. -/
  | trialEntry (p s : Nat)
  /-- DEP_CLASS_LOST (R456): A classification with no repeat within CLS_S closes as lost. -/
  | depClassLost (i : Nat)
  /-- CAL_TEST_DUE (R465): A slot's Calico test falls due and starts or waits for a boundary. -/
  | calTestDue (p s : Nat)
  /-- CAL_TEST_END (R466): A Calico test ends in pass or fail. -/
  | calTestEnd (p s phase want found : Nat)
  /-- CAL_MISS (R467): A test window closes without a start. -/
  | calMiss (p s : Nat)
  /-- CTRL_PARITY (R446): A control-state parity error puts the module in forward-only mode. -/
  | ctrlParity (page off : Nat)
  /-- DEP_CMD_FENCE (R458): FENCE command fences a slot. -/
  | depCmdFence (p s : Nat)
  /-- DEP_CMD_UNFENCE (R460): UNFENCE command clears a slot's fence record. -/
  | depCmdUnfence (p s : Nat)
  /-- DEP_CMD_TEST_NOW (R465): TEST_NOW command starts a Calico test of a slot. -/
  | depCmdTestNow (p s : Nat)
  /-- STK_CMD_FENCE (R353): Records a stack fence request for the next reset. -/
  | stkCmdFence (i : Nat)
  /-- P48V_IN_RANGE (R510): P48V comes within range, the Felt island powers and the Muslin ROM authenticates firmware. -/
  | p48vInRange (authA authB : Nat)
  /-- PWR_INPUT_FAULT (R508): P48V stays out of range for 100 µs and the module enters forward-only mode. -/
  | pwrInputFault (vin : Nat)
  /-- POWER_STAGE_FAULT (R508): The power stage reports a fault and the module enters forward-only mode. -/
  | powerStageFault (code : Nat)
  /-- MOD_RESET_RELEASE (R515): MOD_RESET_N rises, coordinates latch and self-boot runs to BOOTED. -/
  | modResetRelease (b : BootFacts)
  /-- FELT_RESET_MODULE (R518): Command performs a module reset. -/
  | feltResetModule (b : BootFacts)
  /-- FELT_RESET_COLD (R518): Command performs a cold reset. -/
  | feltResetCold (authA authB : Nat)
  /-- FELT_SERVICE_FRAME (R523): A 1 ms service frame runs time steering, telemetry, ALIVE_OUT, error aggregation, scheduling and requests. -/
  | feltServiceFrame (t : FrameFacts)
  /-- CLOCK_THROTTLE_STEP (R534): Every 10 µs the fast clock steps down over the cap or temperature, or up when clear. -/
  | clockThrottleStep (watts tj sensor : Nat)
  /-- LIMITER_ADJUST (R536): The swing limiter loads engines while draw is below its level. -/
  | limiterAdjust (watts : Nat)
  /-- THERMAL_TRIP (R535): A junction reaches 110 °C and the module trips. -/
  | thermalTrip (tj sensor : Nat)
  /-- MGMT_ANNOUNCEMENT (R538): A BOOTED announcement arrives over W. -/
  | mgmtAnnouncement (w : Nat) (e : CensusEntry)
  /-- CENSUS_REPORT (R539): A child board's census entries arrive and are passed upward. -/
  | censusReport (board : Nat) (es : List CensusEntry)
  /-- FELT_TABLE_WRITE (R540): Writing FELT_TABLE_HI starts distribution of the table block. -/
  | feltTableWrite (v : Nat)
  /-- TABLE_BLOCK_MESSAGE (R540): A table block and T_ACT arrive down the census tree. -/
  | tableBlockMessage (block : List Byte) (tAct : Nat)
  /-- PAGE_ENABLE (R561): A write of ENABLE = 1 runs the agreement checks and starts the block. -/
  | pageEnable (init page : Nat)
  /-- PAGE_DISABLE (R562): A write of ENABLE = 0 asks the block to stop. -/
  | pageDisable (init page : Nat)
  /-- PAGE_DISABLE_DONE (R562): The block reaches its stopping point and ENABLED clears. -/
  | pageDisableDone (page : Nat)
  /-- PAGE_COMMIT (R564): COMMIT checks and applies the page's staged values. -/
  | pageCommit (init page : Nat)
  /-- PAGE_SOFT_RESET (R565): SOFT_RESET returns the page configuration to reset, or resets a port. -/
  | pageSoftReset (init page : Nat)
  /-- PAGE_SNAP (R566): Copies the page's counters to HOLD registers. -/
  | pageSnap (page : Nat)
  /-- PG_ERR_CLEAR (R557): A W1C write clears page error bits. -/
  | pgErrClear (page v : Nat)
  /-- REGISTER_WRITE (R11): A write to a register with no row of its own follows its access code. -/
  | registerWrite (init page off size v : Nat)
  /-- REG_TIMEOUT (R567): A page's domain does not answer within tREGTO. -/
  | regTimeout (init page : Nat) (x : LateAccess) (write : Option Nat)
  /-- HI_EVR_ACK (R580): Advances the event-ring consumer index and releases waiting records. -/
  | hiEvrAck (v : Nat)
  /-- BAR2_READ (R575): A host read through BAR2 reaches module memory. -/
  | bar2Read (off len : Nat)
  /-- BAR2_WRITE (R575): A posted host write through BAR2 reaches module memory through the filter. -/
  | bar2Write (off : Nat) (data : List Byte)
  /-- HOST_LINK_UP (R574): The PCIe link reaches L0. -/
  | hostLinkUp (rate width : Nat) (flit : Bool)
  /-- HOST_AER_UNCORR (R599): An uncorrectable PCIe error is detected. -/
  | hostAerUncorr (status hdr : Nat)
  /-- MCTP_READ_REGISTER (R585): MCTP request reads a reachable register. -/
  | mctpReadRegister (page off : Nat)
  /-- MCTP_WRITE_REGISTER (R585): MCTP request writes a reachable register. -/
  | mctpWriteRegister (page off v : Nat)
  /-- MCTP_READ_FELT_LOG (R585): MCTP request reads and marks Felt log records. -/
  | mctpReadFeltLog (count : Nat)
  /-- MCTP_WRITE_FIRMWARE (R585): MCTP request writes a firmware image to the unused copy. -/
  | mctpWriteFirmware (copyB : Bool) (image : List Byte) (done : Bool)
  /-- MCTP_DEBUG_UNLOCK (R514): MCTP debug challenge and signed unlock token. -/
  | mctpDebugUnlock (token : Option UnlockToken)
  /-- TIME_FRAME (R531): A time frame from a neighbour arrives on a link and is timestamped and answered, or gives the module its first machine time. -/
  | timeFrame (i : Nat) (t : TimeFacts)
  /-- TRANSIT_HOLD (R385): The transit-hold bit received from the peer on a link changes, so the port stops or resumes sending TC7 packets. -/
  | transitHold (i : Nat) (on : Bool)
  /-- REGISTER_READ (R32): A register read wakes a sleeping engine page, is refused as a bad access, or acts as a barrier for earlier writes. -/
  | registerRead (init page off size : Nat)
  /-- ENGINE_CLOCK_START (R304): A queued engine clock start begins once DSP_WAKE.STAGGER has passed since the previous start. -/
  | engineClockStart (p s : Nat)
  /-- EV_CMD_SET (R310): Sets the selected event counter to EV_ARG. -/
  | evCmdSet
  /-- EV_CMD_ADD (R310): Adds EV_ARG to the selected event counter. -/
  | evCmdAdd
  /-- EV_VAL_LO_READ (R317): A read of EV_VAL_LO latches the whole selected counter. -/
  | evValLoRead
  /-- SEAL (R335): Opens the epoch of RNG_EPOCH and seals the protected set. -/
  | seal
  /-- SEAL_SNAP (R348): Seals the epoch and a snapshot. -/
  | sealSnap
  /-- RERUN (R347): Reseals the same step after a rollback. -/
  | rerun
  /-- SKIP (R347): Ends a rolled-back step as skipped and advances RNG_EPOCH. -/
  | skip
  /-- RESOLVE_COMMIT (R345): Resolves PREPARED by committing. -/
  | resolveCommit
  /-- RESOLVE_ROLLBACK (R345): Resolves PREPARED by rolling back. -/
  | resolveRollback
  /-- ABORT_SNAP (R349): Ends the active snapshot and frees its S slots. -/
  | abortSnap
  /-- EP_CONTRIBUTION (R339): The module sends its vote contribution or veto once health is non-zero or update-done is reached. -/
  | epContribution
  /-- VOTE_PHASE1_COMPLETE (R340): Phase 1 of the vote completes and the module decides COMMIT or ROLLBACK. -/
  | votePhase1Complete
  /-- COMMIT (R342): Phase 2 completes and the step commits, freeing E slots and advancing RNG_EPOCH. -/
  | commit
  /-- ROLLBACK (R346): A ROLLBACK decision refuses protected writes and starts the restore. -/
  | rollback
  /-- ROLLBACK_COMPLETE (R346): The restore completes and the controller enters ROLLED_BACK. -/
  | rollbackComplete
  /-- STEP_WATCHDOG_EXPIRY (R344): The step watchdog expires before a decision is applied. -/
  | stepWatchdogExpiry
  /-- CLIP_REDO (R279): After c below 1.0 is published and launched tasks complete, the module restores and relaunches the optimiser tasks. -/
  | clipRedo
  /-- SNAPSHOT_START (R488): The snapshot DMA starts writing the image after SEAL_SNAP. -/
  | snapshotStart
  /-- SNAPSHOT_PAGE_DRAIN (R348): The snapshot DMA drains one protected page from its slot or live page. -/
  | snapshotPageDrain
  /-- SNAPSHOT_COMPLETE (R490): After the flushing read completes the manifest is marked COMPLETE. -/
  | snapshotComplete
  /-- COLL_DATA (R412): A COLL data message is applied to its paired operation. -/
  | collData
  /-- COLL_GRANT (R432): A member grants scratch space for data. -/
  | collGrant
  /-- COLL_READY (R422): A RECV's ready message lets the matching SEND proceed. -/
  | collReady
  /-- COLL_ABORT (R427): An abort message ends the paired operation and halts the context. -/
  | collAbort
  /-- COLL_VOTE (R340): A vote contribution message is combined. -/
  | collVote
  /-- COLL_VETO (R343): A received veto makes the module decide ROLLBACK and forward it. -/
  | collVeto
  /-- ROUTER_ROUND (R379): The router assigns output ports to packets for one round. -/
  | routerRound
  /-- WRITE (R389): A WRITE message is applied and acknowledged. -/
  | write
  /-- READ_REQ (R389): A READ_REQ message is served with READ_DATA. -/
  | readReq
  /-- READ_DATA (R367): Returned read data is written at the requester. -/
  | readData
  /-- EV_INC (R312): A remote event increment is applied once and acknowledged. -/
  | evInc
  /-- ACK (R391): An acknowledgement ends a message with its status. -/
  | ack
  /-- MGMT (R373): A management message is delivered to the Felt controller. -/
  | mgmt
  /-- QUARANTINE_END (R394): Quarantine expires and the module injects and accepts messages. -/
  | quarantineEnd
  /-- DEP_CMD_FWD_ONLY (R462): FWD_ONLY command enters forward-only mode. -/
  | depCmdFwdOnly
  /-- P48V_LOSS (R507): P48V falls below the hold level and the module is OFF. -/
  | p48vLoss
  /-- PWR_EN_HIGH (R510): PWR_EN rises and the islands power up to ON. -/
  | pwrEnHigh
  /-- PWR_EN_LOW (R507): PWR_EN falls and the module goes to STANDBY. -/
  | pwrEnLow
  /-- MOD_RESET_ASSERT (R518): MOD_RESET_N low holds a module reset. -/
  | modResetAssert
  /-- PERST_N_ASSERT (R518): PERST_N low resets the host interface. -/
  | perstNAssert
  /-- PERST_N_RELEASE (R510): PERST_N rises and the host link trains. -/
  | perstNRelease
  /-- FELT_RESET_COMPUTE (R518): Command resets engines, dispatch and the collective engine. -/
  | feltResetCompute
  /-- FELT_RESET_ROUTER (R518): Command resets the router island. -/
  | feltResetRouter
  /-- RACK_TICK_EDGE (R529): A RACK_TICK edge aligns machine time and begins a frame. -/
  | rackTickEdge
  /-- RACK_TICK_LOSS (R532): No RACK_TICK edge for 2 ms and the module leaves LOCKED. -/
  | rackTickLoss
  /-- BOARD_LEADER_CHOICE (R538): After hearing all peers or 500 ms the module chooses its board leader. -/
  | boardLeaderChoice
  /-- CENSUS_WAIT_EXPIRY (R539): A leader's wait ends and missing children are entered absent. -/
  | censusWaitExpiry
  /-- TABLES_ACTIVE (R540): At T_ACT the firmware writes the routing fields and sets READY. -/
  | tablesActive
  /-- PAGE_SNAP_ALL (R566): Copies every powered page's counters at one instant with machine time. -/
  | pageSnapAll
  /-- MT_LO_READ (R543): A read of MT_LO latches MT_HI. -/
  | mtLoRead
  /-- FUNCTION_LEVEL_RESET (R576): FLR resets the host interface with the link up. -/
  | functionLevelReset
  /-- D3HOT_ENTRY (R577): The host interface enters D3hot. -/
  | d3hotEntry
  /-- BUS_MASTER_DISABLE (R578): Bus Master Enable is cleared and outbound writes are held. -/
  | busMasterDisable
  /-- HOST_LINK_DOWN (R599): The PCIe link leaves L0 other than by PERST#. -/
  | hostLinkDown
  /-- MCTP_READ_TELEMETRY (R585): MCTP request reads telemetry. -/
  | mctpReadTelemetry
  /-- MCTP_READ_CENSUS (R585): MCTP request reads this module's census entry. -/
  | mctpReadCensus
  /-- BUS_MASTER_ENABLE (R578): Bus Master Enable is set again and the held MSI-X messages, event records, mirror records and snapshot writes resume. -/
  | busMasterEnable
  /-- D3HOT_EXIT (R577): The host returns the function from D3hot to D0, so BAR accesses and outbound writes resume. -/
  | d3hotExit
  deriving DecidableEq, Repr, Inhabited

end Sys2Proof
end

