-- ==== Sys2Proof/Decode.lean ====
section
/-! DEFINITION. The words of the commands. No row of the command table has bits, so decodeTableWord answers none. An engine's instruction
word (R202 to R204, R213 to R218) is decoded and encoded here: it is what an engine's instruction memory holds. -/
namespace Sys2Proof

/-- The command that a table word spells: none, since the table gives no row any bits. -/
def decodeTableWord (_nbits _w : Nat) : Option Instr := none

/-- An instruction word of an engine by its format (R204, R213, R214, R216, R218). `mopen true` is MPRE. -/
inductive EngWord where
  | r (op : BitVec 8) (f : RFmt)
  | i (op : BitVec 8) (f : IFmt)
  | b (op : BitVec 8) (f : BFmt)
  | mload (f : MloadFmt)
  | mma (f : MmaFmt)
  | mopen (pre : Bool) (f : MopenFmt)
  | mdrain (f : MdrainFmt)
  deriving DecidableEq, Repr, Inhabited

/-- The opcodes of Format R (R221). -/
def opsR : List (BitVec 8) :=
  [0x01#8, 0x02#8, 0x03#8, 0x04#8, 0x05#8, 0x06#8, 0x07#8, 0x08#8, 0x09#8, 0x0A#8, 0x0B#8, 0x0C#8, 0x0D#8, 0x0E#8, 0x20#8, 0x21#8, 
   0x22#8, 0x23#8, 0x24#8, 0x25#8, 0x26#8, 0x27#8, 0x3D#8, 0x3E#8, 0x3F#8, 0x41#8, 0x42#8, 0x43#8, 0x44#8, 0x45#8, 0x46#8, 0x50#8, 
   0x51#8, 0x52#8, 0x53#8, 0x54#8, 0x55#8, 0x56#8, 0x57#8, 0x58#8, 0x59#8, 0x5A#8, 0x5B#8, 0x5C#8, 0x5D#8, 0x5E#8, 0x5F#8, 0x60#8, 
   0x61#8, 0x62#8, 0x63#8, 0x64#8, 0x65#8, 0x66#8, 0x6A#8, 0x6B#8, 0x70#8, 0x71#8, 0x72#8, 0x73#8, 0x74#8, 0x78#8, 0x80#8, 0x81#8, 
   0x82#8, 0x83#8, 0x84#8, 0x85#8, 0x86#8, 0x87#8, 0x88#8, 0x89#8, 0x8A#8, 0x90#8, 0x91#8, 0x92#8, 0xB0#8, 0xB1#8, 0xB2#8, 0xB3#8, 
   0xB4#8, 0xB5#8, 0xB8#8, 0xB9#8, 0xBA#8, 0xBB#8]

/-- The opcodes of Format I. -/
def opsI : List (BitVec 8) :=
  [0x10#8, 0x11#8, 0x12#8, 0x13#8, 0x14#8, 0x15#8, 0x16#8, 0x17#8, 0x18#8, 0x30#8, 0x31#8, 0x32#8, 0x33#8, 0x40#8, 0x68#8, 0x69#8]

/-- The opcodes of Format B. -/
def opsB : List (BitVec 8) := [0x38#8, 0x39#8, 0x3A#8, 0x3B#8, 0x3C#8]

/-- A word whose opcode is listed with its format (R202). -/
def EngWord.listed : EngWord → Bool
  | .r op _ => opsR.contains op
  | .i op _ => opsI.contains op
  | .b op _ => opsB.contains op
  | _ => true

/-- The bits of an instruction word, most significant field first (R204, R213 to R218). -/
def EngWord.encode : EngWord → W64
  | .r op f => op ++ f.d ++ f.a ++ f.b ++ f.c ++ f.pen ++ f.p ++ f.pz ++ f.func ++ f.mod
  | .i op f => op ++ f.d ++ f.a ++ f.imm
  | .b op f => op ++ f.cond ++ f.r1 ++ f.a ++ f.b ++ f.r2 ++ f.mask ++ f.off
  | .mload f => 0xA0#8 ++ f.bank ++ f.ori ++ f.fmt ++ f.a ++ f.s ++ f.smode ++ f.stride ++ f.rsv
  | .mma f => 0xA1#8 ++ f.t ++ f.bank ++ f.ori ++ f.mm1 ++ f.a ++ f.s ++ f.fmt ++ f.smode ++ f.stride ++ f.rlog ++ f.rsv
  | .mopen pre f => (if pre then 0xA3#8 else 0xA2#8) ++ f.t ++ f.mode ++ f.seglen ++ f.rmode ++ f.leafLog ++ f.treeLog ++ f.a ++ f.pr ++ f.pfmt
      ++ f.shape ++ f.pstride ++ f.rsv
  | .mdrain f => 0xA4#8 ++ f.t ++ f.pt ++ f.tap ++ f.la ++ f.a ++ f.rsv

/-- Reads the fields of an instruction word; `none` when its opcode is not listed (R202). -/
def EngWord.decode (w : W64) : Option EngWord :=
  let op := w.extractLsb' 56 8
  if opsR.contains op then
    some (.r op ⟨w.extractLsb' 50 6, w.extractLsb' 44 6, w.extractLsb' 38 6, w.extractLsb' 32 6, w.extractLsb' 31 1, w.extractLsb' 28 3,
      w.extractLsb' 27 1, w.extractLsb' 16 11, w.extractLsb' 0 16⟩)
  else if opsI.contains op then some (.i op ⟨w.extractLsb' 50 6, w.extractLsb' 44 6, w.extractLsb' 0 44⟩)
  else if opsB.contains op then
    some (.b op ⟨w.extractLsb' 52 4, w.extractLsb' 50 2, w.extractLsb' 44 6, w.extractLsb' 38 6, w.extractLsb' 32 6, w.extractLsb' 16 16,
      w.extractLsb' 0 16⟩)
  else if op = 0xA0#8 then
    some (.mload ⟨w.extractLsb' 55 1, w.extractLsb' 54 1, w.extractLsb' 50 4, w.extractLsb' 44 6, w.extractLsb' 38 6, w.extractLsb' 35 3,
      w.extractLsb' 23 12, w.extractLsb' 0 23⟩)
  else if op = 0xA1#8 then
    some (.mma ⟨w.extractLsb' 53 3, w.extractLsb' 52 1, w.extractLsb' 51 1, w.extractLsb' 44 7, w.extractLsb' 38 6, w.extractLsb' 32 6,
      w.extractLsb' 28 4, w.extractLsb' 25 3, w.extractLsb' 13 12, w.extractLsb' 9 4, w.extractLsb' 0 9⟩)
  else if op = 0xA2#8 || op = 0xA3#8 then
    some (.mopen (op = 0xA3#8) ⟨w.extractLsb' 53 3, w.extractLsb' 52 1, w.extractLsb' 49 3, w.extractLsb' 46 3, w.extractLsb' 41 5,
      w.extractLsb' 36 5, w.extractLsb' 30 6, w.extractLsb' 24 6, w.extractLsb' 22 2, w.extractLsb' 20 2, w.extractLsb' 8 12, w.extractLsb' 0 8⟩)
  else if op = 0xA4#8 then
    some (.mdrain ⟨w.extractLsb' 53 3, w.extractLsb' 52 1, w.extractLsb' 51 1, w.extractLsb' 49 2, w.extractLsb' 43 6, w.extractLsb' 0 43⟩)
  else none

/-- The instruction word that a command issues, for the commands that are an engine's instructions. -/
def Instr.word : Instr → Option EngWord
  | .add _ f => some (.r 0x01#8 f)
  | .sub _ f => some (.r 0x02#8 f)
  | .and _ f => some (.r 0x03#8 f)
  | .or _ f => some (.r 0x04#8 f)
  | .xor _ f => some (.r 0x05#8 f)
  | .shl _ f => some (.r 0x06#8 f)
  | .shr _ f => some (.r 0x07#8 f)
  | .sra _ f => some (.r 0x08#8 f)
  | .mul _ f => some (.r 0x09#8 f)
  | .mulhu _ f => some (.r 0x0A#8 f)
  | .min _ f => some (.r 0x0B#8 f)
  | .max _ f => some (.r 0x0C#8 f)
  | .slt _ f => some (.r 0x0D#8 f)
  | .sltu _ f => some (.r 0x0E#8 f)
  | .addi _ f => some (.i 0x10#8 f)
  | .andi _ f => some (.i 0x11#8 f)
  | .ori _ f => some (.i 0x12#8 f)
  | .xori _ f => some (.i 0x13#8 f)
  | .shli _ f => some (.i 0x14#8 f)
  | .shri _ f => some (.i 0x15#8 f)
  | .srai _ f => some (.i 0x16#8 f)
  | .li _ f => some (.i 0x17#8 f)
  | .lih _ f => some (.i 0x18#8 f)
  | .fadd _ f => some (.r 0x20#8 f)
  | .fsub _ f => some (.r 0x21#8 f)
  | .fmul _ f => some (.r 0x22#8 f)
  | .ffma _ f => some (.r 0x23#8 f)
  | .fmin _ f => some (.r 0x24#8 f)
  | .fmax _ f => some (.r 0x25#8 f)
  | .fcvtSi _ f => some (.r 0x26#8 f)
  | .fcvtIs _ f => some (.r 0x27#8 f)
  | .ld _ f => some (.i 0x30#8 f)
  | .ldw _ f => some (.i 0x31#8 f)
  | .st _ f => some (.i 0x32#8 f)
  | .stw _ f => some (.i 0x33#8 f)
  | .br _ f => some (.b 0x38#8 f)
  | .brf _ f => some (.b 0x39#8 f)
  | .jmp _ f => some (.b 0x3A#8 f)
  | .loop _ f => some (.b 0x3B#8 f)
  | .loopBrk _ f => some (.b 0x3C#8 f)
  | .rdlc _ f => some (.r 0x3D#8 f)
  | .kend _ f => some (.r 0x3E#8 f)
  | .nop _ f => some (.r 0x3F#8 f)
  | .rdfeat _ f => some (.i 0x40#8 f)
  | .rdns _ f => some (.r 0x41#8 f)
  | .setctx _ f => some (.r 0x42#8 f)
  | .rdctx _ f => some (.r 0x43#8 f)
  | .shrd _ f => some (.r 0x44#8 f)
  | .shset _ f => some (.r 0x45#8 f)
  | .rdtime _ f => some (.r 0x46#8 f)
  | .vaddF _ f => some (.r 0x50#8 f)
  | .vsubF _ f => some (.r 0x51#8 f)
  | .vmulF _ f => some (.r 0x52#8 f)
  | .vfmaF _ f => some (.r 0x53#8 f)
  | .vminF _ f => some (.r 0x54#8 f)
  | .vmaxF _ f => some (.r 0x55#8 f)
  | .vsgnF _ f => some (.r 0x56#8 f)
  | .vcmpF _ f => some (.r 0x57#8 f)
  | .vaddI _ f => some (.r 0x58#8 f)
  | .vsubI _ f => some (.r 0x59#8 f)
  | .vmulI _ f => some (.r 0x5A#8 f)
  | .vand _ f => some (.r 0x5B#8 f)
  | .vor _ f => some (.r 0x5C#8 f)
  | .vxor _ f => some (.r 0x5D#8 f)
  | .vshlI _ f => some (.r 0x5E#8 f)
  | .vshrI _ f => some (.r 0x5F#8 f)
  | .vcmpI _ f => some (.r 0x60#8 f)
  | .vsel _ f => some (.r 0x61#8 f)
  | .vbcast _ f => some (.r 0x62#8 f)
  | .viota _ f => some (.r 0x63#8 f)
  | .vget _ f => some (.r 0x64#8 f)
  | .vput _ f => some (.r 0x65#8 f)
  | .plog _ f => some (.r 0x66#8 f)
  | .vld _ f => some (.i 0x68#8 f)
  | .vst _ f => some (.i 0x69#8 f)
  | .vldc _ f => some (.r 0x6A#8 f)
  | .vstc _ f => some (.r 0x6B#8 f)
  | .vredAdd _ f => some (.r 0x70#8 f)
  | .vredMax _ f => some (.r 0x71#8 f)
  | .vredMin _ f => some (.r 0x72#8 f)
  | .vredAddi _ f => some (.r 0x73#8 f)
  | .vredCnt _ f => some (.r 0x74#8 f)
  | .vcvt _ f => some (.r 0x78#8 f)
  | .lsum _ f => some (.r 0x80#8 f)
  | .lsumP _ f => some (.r 0x81#8 f)
  | .lsumS _ f => some (.r 0x82#8 f)
  | .lsumI _ f => some (.r 0x83#8 f)
  | .lscomb _ f => some (.r 0x84#8 f)
  | .lsclr _ f => some (.r 0x85#8 f)
  | .lsst _ f => some (.r 0x86#8 f)
  | .lsld _ f => some (.r 0x87#8 f)
  | .lsrd _ f => some (.r 0x88#8 f)
  | .vrand _ f => some (.r 0x89#8 f)
  | .vrotc _ f => some (.r 0x8A#8 f)
  | .optM2 _ f => some (.r 0x90#8 f)
  | .optM1 _ f => some (.r 0x91#8 f)
  | .optSgn _ f => some (.r 0x92#8 f)
  | .mload _ f => some (.mload f)
  | .mma _ f => some (.mma f)
  | .mzero _ f => some (.mopen false f)
  | .mpre _ f => some (.mopen true f)
  | .mdrain _ f _ => some (.mdrain f)
  | .dmaG _ f => some (.r 0xB0#8 f)
  | .dmaP _ f => some (.r 0xB1#8 f)
  | .dmaW _ f => some (.r 0xB2#8 f)
  | .evwait _ f => some (.r 0xB3#8 f)
  | .evsig _ f => some (.r 0xB4#8 f)
  | .fence _ f => some (.r 0xB5#8 f)
  | .jpush _ f => some (.r 0xB8#8 f)
  | .jpop _ f => some (.r 0xB9#8 f)
  | .tpush _ f => some (.r 0xBA#8 f)
  | .tpop _ f => some (.r 0xBB#8 f)
  | _ => none

end Sys2Proof
end

