-- ==== Sys2Proof/Machine/Number.lean ====
section
/-! DEFINITION. Numbers: exact values, the rounding lattices of R71 to R74, ZA and binary32 arithmetic (R57, R65, R67, R68, R106), and the counter generator ZCG-64 (R260). -/
namespace Sys2Proof.Machine

/-- An exact numeric value: NaN, a signed infinity, or (-1)^neg × m × 2^e. `Val.mk` keeps m odd, or m = 0 with e = 0,
so that equal values of one sign are equal data. Zero carries its sign (R55). -/
inductive Val where
  | nan
  | inf (neg : Bool)
  | fin (neg : Bool) (m : Nat) (e : Int)
  deriving DecidableEq, Repr, Inhabited

/-- The number of trailing zero bits of a non-zero natural number. -/
def trailingZeros (m : Nat) : Nat := Nat.log2 (m - (m &&& (m - 1)))

/-- The normal form of (-1)^neg × m × 2^e. -/
def Val.mk (neg : Bool) (m : Nat) (e : Int) : Val :=
  if m = 0 then .fin neg 0 0
  else
    let t := trailingZeros m
    .fin neg (m >>> t) (e + t)

/-- +0. -/
def Val.zero : Val := .fin false 0 0

/-- The value of an integer. -/
def Val.ofInt (i : Int) : Val := Val.mk (decide (i < 0)) i.natAbs 0

/-- i × 2^e. -/
def Val.ofIntExp (i : Int) (e : Int) : Val := Val.mk (decide (i < 0)) i.natAbs e

/-- The value with its sign inverted; NaN stays NaN. -/
def Val.neg : Val → Val
  | .nan => .nan
  | .inf n => .inf (!n)
  | .fin n m e => .fin (!n) m e

/-- The magnitude. -/
def Val.abs : Val → Val
  | .nan => .nan
  | .inf _ => .inf false
  | .fin _ m e => .fin false m e

def Val.isNan : Val → Bool
  | .nan => true
  | _ => false

def Val.isInf : Val → Bool
  | .inf _ => true
  | _ => false

def Val.isZero : Val → Bool
  | .fin _ 0 _ => true
  | _ => false

def Val.isFinite : Val → Bool
  | .fin .. => true
  | _ => false

def Val.isNeg : Val → Bool
  | .nan => false
  | .inf n => n
  | .fin n _ _ => n

/-- floor(log2 |x|) of a non-zero finite value: E(m) of R136. -/
def Val.floorLog2 : Val → Int
  | .fin _ m e => (Nat.log2 m : Int) + e
  | _ => 0

/-- x × 2^k, exact (R63). -/
def Val.scale (v : Val) (k : Int) : Val :=
  match v with
  | .fin n 0 _ => .fin n 0 0
  | .fin n m e => .fin n m (e + k)
  | v => v

/-- The signed significand of a finite value at the exponent `q`, which is at most its own. -/
def sigAt (n : Bool) (m : Nat) (e q : Int) : Int :=
  let a : Int := (m <<< (e - q).toNat : Nat)
  if n then -a else a

/-- The exact sum. A sum of two zeros of unlike sign, and an exact cancellation, give +0, or -0 when `rdn` says that
the operation rounds toward -Inf (R57, R106). -/
def Val.add (x y : Val) (rdn : Bool := false) : Val :=
  match x, y with
  | .nan, _ => .nan
  | _, .nan => .nan
  | .inf a, .inf b => if a = b then .inf a else .nan
  | .inf a, _ => .inf a
  | _, .inf b => .inf b
  | .fin n1 m1 e1, .fin n2 m2 e2 =>
    if m1 = 0 ∧ m2 = 0 then .fin (if n1 = n2 then n1 else rdn) 0 0
    else
      let q := if m1 = 0 then e2 else if m2 = 0 then e1 else min e1 e2
      let s := (if m1 = 0 then 0 else sigAt n1 m1 e1 q) + (if m2 = 0 then 0 else sigAt n2 m2 e2 q)
      if s = 0 then .fin rdn 0 0 else Val.mk (decide (s < 0)) s.natAbs q

/-- The exact product (R67: NaN with NaN, and Inf × 0 is NaN). -/
def Val.mul (x y : Val) : Val :=
  match x, y with
  | .nan, _ => .nan
  | _, .nan => .nan
  | .inf a, .inf b => .inf (xor a b)
  | .inf a, .fin b m _ => if m = 0 then .nan else .inf (xor a b)
  | .fin a m _, .inf b => if m = 0 then .nan else .inf (xor a b)
  | .fin a m e, .fin b m' e' => Val.mk (xor a b) (m * m') (e + e')

/-- The order of two values that are not NaN; the two zeros are equal (R55). -/
def Val.cmp (x y : Val) : Ordering :=
  match x, y with
  | .inf a, .inf b => if a = b then .eq else if a then .lt else .gt
  | .inf a, _ => if a then .lt else .gt
  | _, .inf b => if b then .gt else .lt
  | .fin n1 m1 e1, .fin n2 m2 e2 =>
    let q := min e1 e2
    compare (sigAt n1 m1 e1 q) (sigAt n2 m2 e2 q)
  | _, _ => .eq

def Val.lt (x y : Val) : Bool := !x.isNan && !y.isNan && x.cmp y == .lt

def Val.le (x y : Val) : Bool := !x.isNan && !y.isNan && x.cmp y != .gt

/-- IEEE 754-2019 minimum: NaN when either is NaN; -0 lies below +0. -/
def Val.minimum (x y : Val) : Val :=
  if x.isNan || y.isNan then .nan
  else match x.cmp y with
    | .lt => x
    | .gt => y
    | .eq => if x.isNeg then x else y

/-- IEEE 754-2019 maximum. -/
def Val.maximum (x y : Val) : Val :=
  if x.isNan || y.isNan then .nan
  else match x.cmp y with
    | .lt => y
    | .gt => x
    | .eq => if x.isNeg then y else x

/-- x / y for finite values with y non-zero, cut to at least 80 significant bits with the inexactness kept in the last
bit, so that any rounding of R71 other than SR to at most 78 bits equals a single rounding of the quotient. -/
def Val.divSticky (x y : Val) : Val :=
  match x, y with
  | .fin a m e, .fin b m' e' =>
    if m' = 0 then .nan
    else if m = 0 then .fin (xor a b) 0 0
    else
      let k := 80 + Nat.log2 m'
      let n := m <<< k
      let q := n / m'
      Val.mk (xor a b) (2 * q + (if n % m' = 0 then 0 else 1)) (e - e' - k - 1)
  | _, _ => .nan

/-- One step of the integer square root, bit by bit from the top. -/
def isqrtGo (n : Nat) : Nat → Nat → Nat
  | 0, r => r
  | k + 1, r =>
    let c := r ||| (1 <<< k)
    isqrtGo n k (if c * c ≤ n then c else r)

/-- floor(sqrt n). -/
def isqrt (n : Nat) : Nat := isqrtGo n (Nat.log2 n / 2 + 1) 0

/-- The square root of a non-negative finite value, cut as `divSticky` cuts. -/
def Val.sqrtSticky (x : Val) : Val :=
  match x with
  | .fin n m e =>
    if m = 0 then .fin n 0 0
    else if n then .nan
    else
      let odd := decide (e % 2 ≠ 0)
      let m1 := if odd then 2 * m else m
      let e1 := if odd then e - 1 else e
      let r := isqrt (m1 <<< 160)
      Val.mk false (2 * r + (if r * r = m1 <<< 160 then 0 else 1)) (e1 / 2 - 80 - 1)
  | .inf false => .inf false
  | _ => .nan

/-- The rounding modes of R71. -/
inductive RMode where
  | rne | rtz | rup | rdn | rod | sr
  deriving DecidableEq, Repr, Inhabited

/-- The 3-bit code of R71; 0b110 and 0b111 are reserved. -/
def RMode.ofCode : Nat → Option RMode
  | 0 => some .rne
  | 1 => some .rtz
  | 2 => some .rup
  | 3 => some .rdn
  | 4 => some .rod
  | 5 => some .sr
  | _ => none

def RMode.code : RMode → Nat
  | .rne => 0
  | .rtz => 1
  | .rup => 2
  | .rdn => 3
  | .rod => 4
  | .sr => 5

/-- A lattice of R72: `prec` significant bits, and no spacing below 2^emin. -/
structure Lattice where
  prec : Nat
  emin : Int
  deriving DecidableEq, Repr

/-- The parity of the least significant encoding bit of the lattice point lo × 2^q. With one significant bit (ZL4 of R73,
ZE8 of R88) the code counts exponents, and its parity is that of q; zero is even. -/
def oddPoint (prec lo : Nat) (q : Int) : Bool :=
  if prec = 1 then lo ≠ 0 && q % 2 ≠ 0 else lo % 2 = 1

/-- Whether the magnitude (lo + rem / 2^s) × 2^q goes to its upper neighbour (R71, R73, R74). `r` is the 16-bit draw of SR. -/
def roundsUp (mode : RMode) (neg odd : Bool) (rem s r : Nat) : Bool :=
  if rem = 0 then false
  else match mode with
    | .rne => if 2 * rem = 2 ^ s then odd else decide (2 * rem > 2 ^ s)
    | .rtz => false
    | .rup => !neg
    | .rdn => neg
    | .rod => !odd
    | .sr => decide ((rem * 2 ^ 16) / 2 ^ s + r ≥ 2 ^ 16)

/-- Rounds a value onto a lattice (R72), keeping the sign of a zero result (R55, R86). Overflow is the caller's. -/
def roundLattice (l : Lattice) (mode : RMode) (r : Nat) (v : Val) : Val :=
  match v with
  | .fin neg m e =>
    if m = 0 then .fin neg 0 0
    else
      let q := max ((Nat.log2 m : Int) + e - (l.prec - 1 : Nat)) l.emin
      if q ≤ e then Val.mk neg m e
      else
        let s := (q - e).toNat
        let lo := m >>> s
        let rem := m % 2 ^ s
        Val.mk neg (lo + (if roundsUp mode neg (oddPoint l.prec lo q) rem s r then 1 else 0)) q
  | v => v

/-- The ZA float lattice (R65): 37 bits of precision, least spacing 2^-1058. -/
def zaLattice : Lattice := ⟨37, -1058⟩

/-- The largest finite ZA magnitude, (2 - 2^-36) × 2^1023. -/
def zaMax : Val := Val.mk false (2 ^ 37 - 1) (1023 - 36)

/-- Rounds to ZA float; a result beyond the largest finite magnitude is an infinity in every mode (R68). -/
def roundZA (mode : RMode) (r : Nat) (v : Val) : Val :=
  let w := roundLattice zaLattice mode r v
  if w.isFinite && Val.lt zaMax w.abs then .inf w.isNeg else w

/-- One addition of the Twill order: the exact sum rounded to ZA float (R100 to R103, R106). -/
def addZA (mode : RMode) (r : Nat) (x y : Val) : Val := roundZA mode r (x.add y)

/-- The binary32 lattice. -/
def b32Lattice : Lattice := ⟨24, -149⟩

/-- The largest finite binary32 value. -/
def b32Max : Val := Val.mk false (2 ^ 24 - 1) 104

/-- Rounds an exact value to binary32 as vector and scalar arithmetic does (R57): overflow as IEEE 754-2019 sets it for the
mode, and the largest finite value under ROD. -/
def roundB32 (mode : RMode) (r : Nat) (v : Val) : Val :=
  let w := roundLattice b32Lattice mode r v
  if w.isFinite && Val.lt b32Max w.abs then
    let mx := if w.isNeg then b32Max.neg else b32Max
    match mode with
    | .rne => .inf w.isNeg
    | .rtz => mx
    | .rup => if w.isNeg then mx else .inf false
    | .rdn => if w.isNeg then .inf true else mx
    | .rod => mx
    | .sr => .inf w.isNeg
  else w

/-- binary32 addition in a mode (R57). -/
def addB32 (mode : RMode) (x y : Val) : Val := roundB32 mode 0 (x.add y (mode == .rdn))

/-- binary32 multiplication in a mode (R57). -/
def mulB32 (mode : RMode) (x y : Val) : Val := roundB32 mode 0 (x.mul y)

/-- binary32 fused multiply-add x × y + z with one rounding (R57). -/
def fmaB32 (mode : RMode) (x y z : Val) : Val := roundB32 mode 0 ((x.mul y).add z (mode == .rdn))

/-- Correctly rounded binary32 division, RNE. A zero divisor gives an infinity, or NaN for 0 / 0; Inf / Inf is NaN (IEEE 754-2019). -/
def divB32 (x y : Val) : Val :=
  match x, y with
  | .nan, _ => .nan
  | _, .nan => .nan
  | .inf _, .inf _ => .nan
  | .inf a, .fin b _ _ => .inf (xor a b)
  | .fin a _ _, .inf b => .fin (xor a b) 0 0
  | .fin a m _, .fin b m' _ =>
    if m' = 0 then (if m = 0 then .nan else .inf (xor a b)) else roundB32 .rne 0 (x.divSticky y)

/-- Correctly rounded binary32 square root, RNE. -/
def sqrtB32 (x : Val) : Val := roundB32 .rne 0 x.sqrtSticky

/-- A pairwise tree over the values in order, each addition by `f`; an odd value at the end of a level is paired with +0.
With a power of two of leaves this is the balanced tree of R100, R102 and R118. -/
def pairwise (f : Val → Val → Val) : List Val → List Val
  | a :: b :: t => f a b :: pairwise f t
  | [a] => [f a Val.zero]
  | [] => []

/-- `pairwise` repeated `n` times. -/
def treeLevels (f : Val → Val → Val) : Nat → List Val → List Val
  | 0, l => l
  | n + 1, l => treeLevels f n (pairwise f l)

/-- The root of the tree of n levels over a list of at most 2^n leaves; the missing leaves are +0, and a subtree of them is +0. -/
def treeRoot (f : Val → Val → Val) (n : Nat) (l : List Val) : Val :=
  ((treeLevels f n l).head?).getD Val.zero

/-- ceil(log2 n), with 0 for n ≤ 1. -/
def log2Ceil (n : Nat) : Nat := if n ≤ 1 then 0 else Nat.log2 (n - 1) + 1

/-- ceil(a / b). -/
def ceilDiv (a b : Nat) : Nat := (a + b - 1) / b

/-- Rotation of a 64-bit word to the left. -/
def rotl64 (x : W64) (n : Nat) : W64 := (x <<< n) ||| (x >>> (64 - n))

/-- Rounds of ZCG-64 with the given rotation amounts (R260). -/
def zcgRounds : List Nat → W64 → W64 → W64 × W64
  | [], a, b => (a, b)
  | r :: rs, a, b =>
    let a' := a + b
    zcgRounds rs a' (rotl64 b r ^^^ a')

/-- The counter generator ZCG-64 of R260. -/
def zcg64 (key : W64) (sid : Nat) (idx : Nat) (step : Nat) : W64 :=
  let (a, b) := zcgRounds [12, 40, 28, 52] (key ^^^ 0x9E3779B97F4A7C15#64) (BitVec.ofNat 64 idx ^^^ 0xA5D13E870C6BF249#64)
  let inj := BitVec.ofNat 64 ((sid % 2 ^ 32) * 2 ^ 32 + step % 2 ^ 32) ^^^ 0x71C894A2E35F0B1D#64
  (zcgRounds [20, 44, 16, 36] (a + inj) (b ^^^ key)).2

/-- The inputs common to the SR draws of one operation (R75): job seed, OPID and STEP. -/
structure DrawKey where
  seed : W64
  opid : Nat
  step : Nat
  deriving DecidableEq, Repr

/-- The 16-bit draw of element e in slot q (R75). -/
def DrawKey.draw (k : DrawKey) (e q : Nat) : Nat :=
  ((zcg64 k.seed k.opid (e * 2 ^ 20 + q / 4) k.step).toNat >>> (16 * (q % 4))) % 2 ^ 16

/-- A long accumulator (R122): V in units of 2^-320, the term count and the four flags. -/
structure LongAcc where
  v : Int := 0
  n : Nat := 0
  nan : Bool := false
  pinf : Bool := false
  ninf : Bool := false
  ovf : Bool := false
  deriving DecidableEq, Repr, Inhabited

/-- The 640-bit two's complement value of an integer (R122). -/
def wrap640 (i : Int) : Int := (i + 2 ^ 639) % 2 ^ 640 - 2 ^ 639

/-- Adds `k` to N, which stops at 2^63 and sets OVF there (R125). -/
def LongAcc.count (a : LongAcc) (k : Nat) : LongAcc :=
  let n := min (a.n + k) (2 ^ 63)
  { a with n, ovf := a.ovf || n == 2 ^ 63 }

/-- Adds one exact term (R123). -/
def LongAcc.addVal (a : LongAcc) (t : Val) : LongAcc :=
  (match t with
   | .nan => { a with nan := true }
   | .inf n => if n then { a with ninf := true } else { a with pinf := true }
   | .fin n m e => { a with v := wrap640 (a.v + (if m = 0 then 0 else sigAt n m e (-320))) }).count 1

/-- Combines two long accumulators (R124). -/
def LongAcc.combine (a b : LongAcc) : LongAcc :=
  { (({ a with v := wrap640 (a.v + b.v) } : LongAcc).count b.n) with
    nan := a.nan || b.nan, pinf := a.pinf || b.pinf, ninf := a.ninf || b.ninf,
    ovf := a.ovf || b.ovf || min (a.n + b.n) (2 ^ 63) == 2 ^ 63 }

/-- The value a readout converts (R126): NaN, an infinity, +0, or V. -/
def LongAcc.value (a : LongAcc) : Val :=
  if a.nan || a.ovf || (a.pinf && a.ninf) then .nan
  else if a.pinf then .inf false
  else if a.ninf then .inf true
  else Val.ofIntExp a.v (-320)

end Sys2Proof.Machine
end

