-- ==== Sys2Proof/Config.lean ====
section
/-! DEFINITION. What an individual part fixes, and the values the spec leaves open. Every constant here is opaque: nothing in Lean can see what it is, so a statement holds for every value. -/
namespace Sys2Proof.Config

/-- The 64-bit serial number of the part (R598). Log entry 3. -/
opaque serial : BitVec 64

/-- The screening grade in PG_FEAT bit 31 (R3): true on PZT8-A80-S. Log entry 3. -/
opaque gradeS : Bool

/-- The approximated drain functions of R188 for finite inputs: the function code, x and the derivative operand g. The spec
bounds their error and fixes no method, so the result is a free value of the operands, which `withinBound` holds to the bound. Log entry 4. -/
opaque fusedFn : Nat → Machine.Val → Machine.Val → Machine.Val

/-- A free value by the state's free-value counter, for a result that the spec leaves open. Log entry 5. -/
opaque freeValue : Nat → BitVec 64

/-- The 8 bytes of a page-state entry or of a directory entry for a state of its page or slot; the spec places them and gives them no layout (R329).
Log entry 96. -/
opaque poolEntry : List Nat → BitVec 64

/-- By how many parts in 10^9 a backward correction slows the count at a time; the spec bounds it by 100 ppm (R526). Log entry 61. -/
opaque slewRate : Nat → BitVec 32

/-- The 16-bit digest of the fields of R412 that must agree; the spec names the fields and states no algorithm. Log entry 25. -/
opaque digest : List Nat → BitVec 16

end Sys2Proof.Config
end

