-- ==== Sys2Proof/Machine/Format.lean ====
section
/-! DEFINITION. Storage formats (R50 to R64), their packing (R52), and the conversions of R82 to R89 with the classes that the numeric record counts (R91, R92). -/
namespace Sys2Proof.Machine

/-- The storage formats of R50, with the unsigned domain of ZF8 (R58) as a format of its own. -/
inductive Fmt where
  | b32 | zf24 | zf16 | zf8 | zf8u | zg8 | zl4 | i8 | u8 | i4 | u4 | ze8 | zm1
  deriving DecidableEq, Repr, Inhabited

/-- The format of a 4-bit code and the UD attribute (R50, R58). UD goes with ZF8 alone. -/
def Fmt.ofCode (c : Nat) (ud : Bool := false) : Option Fmt :=
  if ud then (if c = 3 then some .zf8u else none)
  else match c with
    | 0 => some .b32
    | 1 => some .zf24
    | 2 => some .zf16
    | 3 => some .zf8
    | 4 => some .zg8
    | 5 => some .zl4
    | 6 => some .i8
    | 7 => some .u8
    | 8 => some .i4
    | 9 => some .u4
    | 10 => some .ze8
    | 11 => some .zm1
    | _ => none

/-- The 4-bit code of R50. -/
def Fmt.code : Fmt → Nat
  | .b32 => 0
  | .zf24 => 1
  | .zf16 => 2
  | .zf8 => 3
  | .zf8u => 3
  | .zg8 => 4
  | .zl4 => 5
  | .i8 => 6
  | .u8 => 7
  | .i4 => 8
  | .u4 => 9
  | .ze8 => 10
  | .zm1 => 11

/-- The bits of one element. -/
def Fmt.bits : Fmt → Nat
  | .b32 => 32
  | .zf24 => 24
  | .zf16 => 16
  | .zl4 => 4
  | .i4 => 4
  | .u4 => 4
  | .zm1 => 1
  | _ => 8

def Fmt.isInt : Fmt → Bool
  | .i8 => true
  | .u8 => true
  | .i4 => true
  | .u4 => true
  | _ => false

/-- Exponent bits, fraction bits, bias and sign bit of a floating-point format (R50, R58). -/
def Fmt.layout : Fmt → Option (Nat × Nat × Nat × Bool)
  | .b32 => some (8, 23, 127, true)
  | .zf24 => some (8, 15, 127, true)
  | .zf16 => some (6, 9, 31, true)
  | .zf8 => some (4, 3, 9, true)
  | .zf8u => some (5, 3, 18, false)
  | .zg8 => some (5, 2, 13, true)
  | _ => none

/-- The format has infinities (R54). -/
def Fmt.hasInf : Fmt → Bool
  | .b32 => true
  | .zf24 => true
  | .zf16 => true
  | .zg8 => true
  | _ => false

/-- The canonical NaN pattern of R54 and R60; integer targets give 0 and ZE8 gives 0xFF (R83). -/
def Fmt.nanBits : Fmt → Nat
  | .b32 => 0x7FC00000
  | .zf24 => 0x7FC000
  | .zf16 => 0x7F00
  | .zf8 => 0x7F
  | .zf8u => 0xFF
  | .zg8 => 0x7E
  | .zl4 => 0x8
  | .ze8 => 0xFF
  | _ => 0

/-- The smallest and the largest value of an integer format (R61). -/
def Fmt.intRange : Fmt → Int × Int
  | .i8 => (-128, 127)
  | .u8 => (0, 255)
  | .i4 => (-8, 7)
  | .u4 => (0, 15)
  | _ => (0, 0)

/-- The rounding lattice of a target (R72, R73, R87, R88). -/
def Fmt.lattice : Fmt → Lattice
  | .b32 => ⟨24, -149⟩
  | .zf24 => ⟨16, -141⟩
  | .zf16 => ⟨10, -39⟩
  | .zf8 => ⟨4, -11⟩
  | .zf8u => ⟨4, -20⟩
  | .zg8 => ⟨3, -14⟩
  | .zl4 => ⟨1, -3⟩
  | .ze8 => ⟨1, -1000000⟩
  | _ => ⟨1000000, 0⟩

/-- The largest finite magnitude of a target (R54, R60, R62, R135). -/
def Fmt.maxFinite : Fmt → Val
  | .b32 => Val.mk false (2 ^ 24 - 1) 104
  | .zf24 => Val.mk false (2 ^ 16 - 1) 112
  | .zf16 => Val.mk false (2 ^ 10 - 1) 22
  | .zf8 => Val.mk false 112 0
  | .zf8u => Val.mk false 14336 0
  | .zg8 => Val.mk false 229376 0
  | .zl4 => Val.mk false 8 0
  | .i8 => Val.mk false 127 0
  | .u8 => Val.mk false 255 0
  | .i4 => Val.mk false 7 0
  | .u4 => Val.mk false 15 0
  | .ze8 => Val.mk false 1 158
  | .zm1 => Val.zero

/-- E_F of R135: floor(log2 F). -/
def Fmt.maxExp (f : Fmt) : Int := f.maxFinite.floorLog2

/-- The value of an encoded floating-point element (R53, R54). -/
def decodeFloat (f : Fmt) (eb fb bias : Nat) (sgn : Bool) (bits : Nat) : Val :=
  let neg := sgn && (bits >>> (eb + fb)) % 2 = 1
  let e := (bits >>> fb) % 2 ^ eb
  let fr := bits % 2 ^ fb
  if f.hasInf && e = 2 ^ eb - 1 then (if fr = 0 then .inf neg else .nan)
  else if !f.hasInf && e = 2 ^ eb - 1 && fr = 2 ^ fb - 1 then .nan
  else if e = 0 then Val.mk neg fr (1 - (bias : Int) - fb)
  else Val.mk neg (2 ^ fb + fr) ((e : Int) - bias - fb)

/-- Two's complement reading of `n` bits. -/
def signedOf (n bits : Nat) : Int := if bits < 2 ^ (n - 1) then bits else (bits : Int) - 2 ^ n

/-- The value of an element's bits (R53, R60 to R62). -/
def Fmt.decode (f : Fmt) (raw : Nat) : Val :=
  let bits := raw % 2 ^ f.bits
  match f.layout with
  | some (eb, fb, bias, sgn) => decodeFloat f eb fb bias sgn bits
  | none =>
    match f with
    | .zl4 =>
      if bits = 8 then .nan
      else if bits % 8 = 0 then Val.zero
      else Val.mk (decide (bits ≥ 8)) 1 ((bits % 8 : Nat) - 4)
    | .i8 => Val.ofInt (signedOf 8 bits)
    | .i4 => Val.ofInt (signedOf 4 bits)
    | .ze8 => if bits = 255 then .nan else Val.mk false 1 ((bits : Int) - 96)
    | _ => Val.mk false bits 0

/-- The bits of a value that the format holds exactly (a point of its lattice within its range); NaN gives the canonical pattern. -/
def Fmt.encode (f : Fmt) (v : Val) : Nat :=
  match f.layout with
  | some (eb, fb, bias, sgn) =>
    match v with
    | .nan => f.nanBits
    | .inf n => if f.hasInf then (if n then 2 ^ (eb + fb) else 0) + (2 ^ eb - 1) * 2 ^ fb else f.nanBits
    | .fin n m e =>
      let s := if n && sgn then 2 ^ (eb + fb) else 0
      if m = 0 then s
      else
        let emin : Int := 1 - (bias : Int) - fb
        let q := max ((Nat.log2 m : Int) + e - fb) emin
        let sig := m <<< (e - q).toNat
        if sig < 2 ^ fb then s + sig
        else s + (q - emin + 1).toNat * 2 ^ fb + (sig - 2 ^ fb)
  | none =>
    match f, v with
    | .zl4, .fin n m e => if m = 0 then 0 else (if n then 8 else 0) + (e + 4).toNat
    | .ze8, .fin _ _ e => (e + 96).toNat
    | .i8, .fin n m e => ((if n then 2 ^ 8 - (m <<< e.toNat) else m <<< e.toNat)) % 2 ^ 8
    | .i4, .fin n m e => ((if n then 2 ^ 4 - (m <<< e.toNat) else m <<< e.toNat)) % 2 ^ 4
    | .u8, .fin _ m e => (m <<< e.toNat) % 2 ^ 8
    | .u4, .fin _ m e => (m <<< e.toNat) % 2 ^ 4
    | f, _ => f.nanBits

/-- The class of R91 that counts a source element; each element falls into at most one (R92). -/
inductive ConvClass where
  | plain | sat | ftz | nan | inf
  deriving DecidableEq, Repr, Inhabited

/-- Converts one value into a target: the result's bits and the class counted (R82 to R89). `r` is the SR draw. -Inf into a target
without negative values counts as an infinity, not as a value outside the domain: DESIGN CHOICE, log entry 9; the rest of that entry is DEDUCED. -/
def Fmt.convert (f : Fmt) (mode : RMode) (strict : Bool) (r : Nat) (v : Val) : Nat × ConvClass :=
  if f.isInt then
    let (lo, hi) := f.intRange
    match v with
    | .nan => (0, .nan)
    | .inf n => (f.encode (Val.ofInt (if n then lo else hi)), .inf)
    | .fin _ 0 _ => (0, .plain)
    | v =>
      let w := roundLattice f.lattice mode r v
      if Val.lt w (Val.ofInt lo) then (f.encode (Val.ofInt lo), .sat)
      else if Val.lt (Val.ofInt hi) w then (f.encode (Val.ofInt hi), .sat)
      else (f.encode w, if w.isZero then .ftz else .plain)
  else if f = .ze8 then
    match v with
    | .nan => (0xFF, .nan)
    | .inf n => (if n then 0xFF else 0xFE, .inf)
    | .fin n m _ =>
      if m = 0 || n then (0xFF, .nan)
      else
        let w := roundLattice f.lattice mode r v
        if Val.lt w (Val.mk false 1 (-96)) then (0, .sat)
        else if Val.lt f.maxFinite w then (0xFE, .sat)
        else (f.encode w, .plain)
  else
    match v with
    | .nan => (f.nanBits, .nan)
    | .inf n => (f.encode (.inf n), .inf)
    | .fin n m _ =>
      if f = .zf8u && n && m ≠ 0 then (0xFF, .nan)
      else if m = 0 then (f.encode v, .plain)
      else
        let w := roundLattice f.lattice mode r v
        if Val.lt f.maxFinite w.abs then
          (if strict then f.encode (.inf n) else f.encode (if n then f.maxFinite.neg else f.maxFinite), .sat)
        else (f.encode w, if w.isZero then .ftz else .plain)

/-- How a conversion of R82 between two storage formats works; `none` is a conversion the module does not support. -/
inductive ConvKind where
  | exact | rounding | zeOverflow
  deriving DecidableEq, Repr

/-- The conversion table of R82, storage formats to storage formats. -/
def convKind (src dst : Fmt) : Option ConvKind :=
  match src, dst with
  | .b32, .b32 => none
  | .b32, .zm1 => none
  | .b32, _ => some .rounding
  | .zf24, .b32 => some .exact
  | .zf24, .zf16 => some .rounding
  | .zf24, .zf8 => some .rounding
  | .zf24, .zf8u => some .rounding
  | .zf24, .zg8 => some .rounding
  | .zf16, .b32 => some .exact
  | .zf16, .zf24 => some .exact
  | .zf16, .zf8 => some .rounding
  | .zf16, .zf8u => some .rounding
  | .zf16, .zg8 => some .rounding
  | .ze8, .b32 => some .zeOverflow
  | s, d =>
    if (s = .zf8 || s = .zf8u || s = .zg8 || s = .zl4 || s.isInt) && (d = .b32 || d = .zf24 || d = .zf16) then some .exact
    else none

/-- The row of R82 for a rounding conversion into this target lists SR. -/
def Fmt.allowsSR (f : Fmt) : Bool := f ≠ .ze8

/-- The targets of the ZA rows of R82. -/
def Fmt.drainTarget (f : Fmt) : Bool := f ≠ .ze8 && f ≠ .zm1

/-- Whether a mode is among those the row of R82 lists for a rounding conversion into the target: ZE8 takes no ROD and no SR. -/
def Fmt.allowsMode (f : Fmt) (m : RMode) : Bool := f ≠ .ze8 || (m ≠ .rod && m ≠ .sr)

/-- The mode that the final step applies after R81: SR for GRAD and for every conversion into ZG8, where the row lists SR. -/
def finalMode (f : Fmt) (grad : Bool) (m : RMode) : RMode :=
  if f.allowsSR && (grad || f = .zg8) then .sr else m

/-- Bit offset of element i in a contiguous array (R52). -/
def Fmt.bitOffset (f : Fmt) (i : Nat) : Nat := i * f.bits

/-- Bytes that n elements of the format occupy (R52); ZM1 fills whole 64-bit words. -/
def Fmt.bytes (f : Fmt) (n : Nat) : Nat := if f = .zm1 then 8 * ceilDiv n 64 else ceilDiv (n * f.bits) 8

/-- The array modes of R70: the multiply-accumulates per cell per cycle and whether ZA works in integer mode. -/
def pairing (a b : Fmt) : Option (Nat × Bool) :=
  let f8 := fun (f : Fmt) => f = .zf8 || f = .zg8
  let i8 := fun (f : Fmt) => f = .i8 || f = .u8
  let i4 := fun (f : Fmt) => f = .i4 || f = .u4
  if a = .zf16 && b = .zf16 then some (1, false)
  else if (f8 a && (f8 b || i8 b)) || (i8 a && f8 b) then some (2, false)
  else if i8 a && i8 b then some (2, true)
  else if a = .zl4 && b = .zl4 then some (4, false)
  else if i4 a && i4 b then some (4, true)
  else if ((a = .zl4 || i4 a) && (f8 b || i8 b)) || ((b = .zl4 || i4 b) && (f8 a || i8 a)) then
    some (2, a.isInt && b.isInt)
  else none

/-- The ZE8 code of the largest finite non-zero source magnitude (MAXEXP of R91). -/
def maxExpCode (v : Val) : Nat := (min (max (v.floorLog2 + 96) 0) 254).toNat

end Sys2Proof.Machine
end

