-- ==== Sys2Proof/Machine/EngineTypes.lean ====
section
/-! DEFINITION. The state of one engine (R165, R177, R197, R207, R210, R228, R236), as plain data. -/
namespace Sys2Proof.Machine

/-- ENG_STATUS.STATE (R197). -/
inductive EState where
  | sleep | idle | run | fault | test | fenced | off
  deriving DecidableEq, Repr, Inhabited

/-- The value of R197. -/
def EState.code : EState → Nat
  | .sleep => 0
  | .idle => 1
  | .run => 2
  | .fault => 3
  | .test => 4
  | .fenced => 5
  | .off => 6

/-- An active hardware loop (R228): the body's first and last index, the latched count n and the iteration index lc. -/
structure HwLoop where
  first : Nat
  last : Nat
  n : Nat
  lc : Nat
  deriving DecidableEq, Repr, Inhabited

/-- The numeric context CTX (R207). -/
structure Ctx where
  opid : Nat := 0
  step : Nat := 0
  ebase : Nat := 0
  deriving DecidableEq, Repr, Inhabited

/-- A stationary bank (R165, R175). `fmt = none` is empty. `cols` holds, for each output column, the stationary elements by
reduction position, each multiplied by the scale 2^(z - 96) of its block (exact, R63; NaN for the code 0xFF, R142). `sums` and `mags` are the
sums that the checksum adders form at MLOAD: for each reduction position the sum of its 128 elements, and of their magnitudes (R192, R447). -/
structure Bank where
  fmt : Option Fmt := none
  smode : Nat := 0
  cols : List (List Val) := []
  sums : List Val := []
  mags : List Val := []
  deriving DecidableEq, Repr, Inhabited

/-- One element of an accumulator tile. Float mode: the running sum of the open segment and the stack of completed subtree
values, newest first (R180). Integer mode: the exact sum and, once the sum has left the range of R65, its sign then (R69). -/
structure TElem where
  run : Option Val := none
  stk : List Val := []
  sum : Int := 0
  ovf : Option Bool := none
  deriving DecidableEq, Repr, Inhabited

/-- The preload of a tile (R183): offset, format, shape (0 TILE, 1 ROWVEC, 2 COLVEC) and row distance in 64-byte units. -/
structure Preload where
  off : Nat
  fmt : Fmt
  shape : Nat
  stride : Nat
  deriving DecidableEq, Repr, Inhabited

/-- What the checksum adders keep of an open tile (R192, R447): the passes since it was opened, the checks of rows 0 to 127 and of columns 0 to 127,
and their magnitude checks. The lists are empty, for +0 in every line, until the first pass. -/
structure Checks where
  passes : Nat := 0
  row : List Val := []
  col : List Val := []
  rowMag : List Val := []
  colMag : List Val := []
  deriving DecidableEq, Repr, Inhabited

/-- An open accumulator tile (R177) with its checks. `nchunk` counts the chunks issued, `added` those that have left the array; `rows` is
empty until the first chunk enters. -/
structure Tile where
  int : Bool
  seglen : Nat
  rmode : RMode
  leafLog : Nat
  treeLog : Nat
  chunkBase : Nat
  opid : Nat
  step : Nat
  ebase : Nat
  erow : Nat
  nchunk : Nat := 0
  added : Nat := 0
  pre : Option Preload := none
  rows : List (List TElem) := []
  chk : Checks := {}
  deriving DecidableEq, Repr, Inhabited

/-- A stored block that MLOAD or MMA names: orientation (COL true), format, offset, row distance in 64-byte units, scale mode and scale word (R213 to R215). -/
structure Block where
  col : Bool
  fmt : Fmt
  off : Nat
  stride : Nat
  smode : Nat
  scale : W64
  deriving DecidableEq, Repr, Inhabited

/-- An MMA in flight: tile, bank, RLOG, the index within the part of its first chunk, and its streamed rows 0 to M - 1, read in
program order when it issued (R169, R176, R180). -/
structure MmaJob where
  tile : Nat
  bank : Nat
  rlog : Nat
  chunk : Nat
  rows : List (List Val)
  deriving DecidableEq, Repr, Inhabited

/-- An MLOAD in flight: the bank and what it will hold, read in program order when it issued (R169, R174, R213). -/
structure MloadJob where
  bank : Nat
  data : Bank
  deriving DecidableEq, Repr, Inhabited

/-- The counts of a numeric record (R91), gathered element by element. `maxexp` is none while no finite non-zero source has been met. -/
structure NumRec where
  sat : Nat := 0
  ftz : Nat := 0
  nan : Nat := 0
  inf : Nat := 0
  elem : Nat := 0
  maxexp : Option Nat := none
  nonref : Bool := false
  strict : Bool := false
  ud : Bool := false
  dst : Nat := 0
  src : Nat := 0
  rmode : Nat := 0
  grad : Bool := false
  opid : Nat := 0
  step : Nat := 0
  deriving DecidableEq, Repr, Inhabited

/-- A drain between its first row and its completion (R90, R134): the engine-store bytes still to be written (last row, scale bytes),
the record and its offset, the ledger marks of NSTAT, the long accumulator of its norm tap with the terms, the pieces it pushes, and its place among the instructions that
set NSTAT. -/
structure DrainJob where
  tile : Nat
  writes : List (Nat × Nat)
  record : NumRec
  recOff : Option Nat
  ovr : Bool
  seed : Bool
  tap : Option Nat
  taps : List Val
  pieces : List Nat
  seq : Nat
  deriving DecidableEq, Repr, Inhabited

/-- Work of an engine that has issued and not completed (R195). -/
inductive Job where
  | mload (j : MloadJob)
  | mma (j : MmaJob)
  | drain (j : DrainJob)
  deriving DecidableEq, Repr, Inhabited

/-- The kind of a tagged transfer: DMA.G, DMA.P, a push of a piece or a pop of a piece. -/
inductive XKind where
  | get | put | push | pop
  deriving DecidableEq, Repr, Inhabited

/-- A transfer in flight under a tag (R170, R248): engine-store offset, 60-bit global address, length. A push knows its piece (2 × id, plus 1
for the Tulle store) and where its data lies; a pop holds the piece's data, which the pop freed as it issued (R252), and the first poisoned
address met in it. `remote` says that a message to another module carries it, `answered` that the
answer has come, with its status of R368. -/
structure Xfer where
  kind : XKind
  off : Nat
  addr : Nat
  len : Nat
  step : Nat := 0
  opt : Bool := false
  piece : Nat := 0
  data : List Nat := []
  bad : Option Nat := none
  remote : Bool := false
  answered : Bool := false
  status : Nat := 0
  deriving DecidableEq, Repr, Inhabited

/-- A DMA tag (R165, R171). -/
structure Tag where
  fault : Bool := false
  addr : Nat := 0
  xfer : Option Xfer := none
  deriving DecidableEq, Repr, Inhabited

/-- What the instruction at the pc waits for (R224, R234, R277): nothing, an event counter, the slice-wide health word of a
step (with the word once it is published), or the clip factor. -/
inductive Wait where
  | none
  | ev (counter : Nat) (threshold : Nat)
  | sh (d : Nat) (step : Nat) (word : Option Nat)
  | clip (step : Nat) (desc : Nat)
  deriving DecidableEq, Repr, Inhabited

/-- The image that a bank holds (R301): KID, KADDR and KLEN; KID 0 for none. -/
structure Image where
  kid : Nat := 0
  kaddr : Nat := 0
  klen : Nat := 0
  deriving DecidableEq, Repr, Inhabited

/-- One physical engine slot (R165, R197). Lists hold the registers by number. Instruction memory is a list of non-zero
words by index (R239: unlisted words are 0). `nsSeq` numbers the instructions that set NSTAT, so that the last in program order decides it
(R210, R211); `ptCount` counts the kernel's MDRAINs with PT = 1 by tile (R433). The mechanisms of later chapters that act on a slot are kept here too. -/
structure Engine where
  st : EState := .off
  s : List W64 := List.replicate 32 0#64
  v : List (List W32) := List.replicate 64 (List.replicate 128 0#32)
  p : List (BitVec 128) := List.replicate 8 (BitVec.allOnes 128)
  la : List LongAcc := List.replicate 4 {}
  sb : List Bank := List.replicate 2 {}
  acc : List (Option Tile) := List.replicate 8 none
  tags : List Tag := List.replicate 16 {}
  im : List (List (Nat × W64)) := [[], []]
  active : Nat := 0
  loading : Bool := false
  images : List Image := [{}, {}]
  pc : Nat := 0
  loops : List HwLoop := []
  ctx : Ctx := {}
  nstat : BitVec 16 := 0#16
  nsSeq : Nat := 0
  ptCount : List Nat := List.replicate 8 0
  seed : W64 := 0#64
  wait : Wait := .none
  jobs : List Job := []
  nonfinite : Bool := false
  suspect : Bool := false
  tainted : Bool := false
  remotes : Nat := 0
  remoteRefused : Option (Nat × Nat) := none
  faultCode : Nat := 0
  faultTag : Nat := 0
  faultBank : Nat := 0
  faultPc : Nat := 0
  faultAddr : Nat := 0
  task : Option (Nat × Nat) := none
  deriving DecidableEq, Repr, Inhabited

/-- The architectural registers of R165 at their reset values, with everything a kernel boundary clears (R184, R300). -/
def Engine.clearRegs (e : Engine) : Engine :=
  { e with s := List.replicate 32 0#64, v := List.replicate 64 (List.replicate 128 0#32),
           p := List.replicate 8 (BitVec.allOnes 128), la := List.replicate 4 {}, sb := List.replicate 2 {},
           acc := List.replicate 8 none, tags := List.replicate 16 {}, loops := [], ctx := {}, nstat := 0#16, nsSeq := 0, ptCount := List.replicate 8 0,
           wait := .none, jobs := [], nonfinite := false, suspect := false, tainted := false, remotes := 0, remoteRefused := none }

/-- Scalar register r; s0 reads as 0 (R166). -/
def Engine.getS (e : Engine) (r : Nat) : W64 := if r = 0 then 0#64 else e.s.getD r 0#64

/-- Writes scalar register r; a write to s0 is discarded (R166). -/
def Engine.setS (e : Engine) (r : Nat) (x : W64) : Engine := if r = 0 then e else { e with s := e.s.set r x }

/-- Vector register r. -/
def Engine.getV (e : Engine) (r : Nat) : List W32 := e.v.getD r (List.replicate 128 0#32)

def Engine.setV (e : Engine) (r : Nat) (x : List W32) : Engine := { e with v := e.v.set r x }

def Engine.getP (e : Engine) (r : Nat) : BitVec 128 := e.p.getD r (BitVec.allOnes 128)

def Engine.setP (e : Engine) (r : Nat) (x : BitVec 128) : Engine := { e with p := e.p.set r x }

def Engine.getLa (e : Engine) (r : Nat) : LongAcc := e.la.getD r {}

def Engine.setLa (e : Engine) (r : Nat) (x : LongAcc) : Engine := { e with la := e.la.set r x }

def Engine.getTag (e : Engine) (r : Nat) : Tag := e.tags.getD r {}

def Engine.setTag (e : Engine) (r : Nat) (x : Tag) : Engine := { e with tags := e.tags.set r x }

def Engine.getTile (e : Engine) (r : Nat) : Option Tile := e.acc.getD r none

def Engine.setTile (e : Engine) (r : Nat) (x : Option Tile) : Engine := { e with acc := e.acc.set r x }

end Sys2Proof.Machine
end

