-- ==== Sys2Proof/Machine/Flags.lean ====
section
/-! DEFINITION. Flag computations: the numeric record (R90 to R94) and the numeric status NSTAT (R210). -/
namespace Sys2Proof.Machine

/-- A 32-bit count stops at 0xFFFF_FFFF (R92). -/
def cap32 (n : Nat) : Nat := min n 0xFFFFFFFF

/-- n bytes of a number, little-endian (R10). -/
def leBytes : Nat → Nat → List Nat
  | 0, _ => []
  | n + 1, x => x % 256 :: leBytes n (x / 256)

/-- The number that bytes hold, little-endian (R10). -/
def ofLe : List Nat → Nat
  | [] => 0
  | b :: t => b % 256 + 256 * ofLe t

/-- Bits lo to lo + w - 1 of a number (R9). -/
def bitsOf (x lo w : Nat) : Nat := (x >>> lo) % 2 ^ w

/-- Replaces bits lo to lo + w - 1 of a number (R9). -/
def setBits (x lo w y : Nat) : Nat := x - (bitsOf x lo w) * 2 ^ lo + (y % 2 ^ w) * 2 ^ lo

/-- Bit i of a number. -/
def bitAt (x i : Nat) : Bool := (x >>> i) % 2 = 1

/-- A flag as a number. -/
def b2n (b : Bool) : Nat := if b then 1 else 0

/-- Counts one converted element: `x` is the value presented to the scaling stage, `cls` the class of its conversion (R91 to R93). -/
def NumRec.note (r : NumRec) (x : Val) (cls : ConvClass) : NumRec :=
  let r := { r with elem := r.elem + 1,
                    maxexp := match x with
                      | .fin _ m _ => if m = 0 then r.maxexp else some (max (maxExpCode x) (r.maxexp.getD 0))
                      | _ => r.maxexp }
  match cls with
  | .plain => r
  | .sat => { r with sat := r.sat + 1 }
  | .ftz => { r with ftz := r.ftz + 1 }
  | .nan => { r with nan := r.nan + 1 }
  | .inf => { r with inf := r.inf + 1 }

/-- FLAGS.CNT_SAT of R91: a count is held at its largest value. -/
def NumRec.cntSat (r : NumRec) : Bool :=
  r.sat ≥ 0xFFFFFFFF || r.ftz ≥ 0xFFFFFFFF || r.nan ≥ 0xFFFFFFFF || r.inf ≥ 0xFFFFFFFF

/-- The 32 bytes of a numeric record (R91). -/
def NumRec.bytes (r : NumRec) : List Nat :=
  leBytes 4 (cap32 r.sat) ++ leBytes 4 (cap32 r.ftz) ++ leBytes 4 (cap32 r.nan) ++ leBytes 4 (cap32 r.inf)
  ++ leBytes 4 (r.elem % 2 ^ 32) ++ [r.maxexp.getD 0xFF]
  ++ [b2n r.nonref + 2 * b2n r.cntSat + 4 * b2n r.strict + 8 * b2n r.ud]
  ++ [r.dst + 16 * r.src] ++ [r.rmode + 8 * b2n r.grad] ++ leBytes 4 (r.opid % 2 ^ 32) ++ leBytes 4 (r.step % 2 ^ 32)

/-- NSTAT from the counts of an operation and its ledger marks (R210). -/
def NumRec.nstat (r : NumRec) (ovr seed : Bool) : BitVec 16 :=
  BitVec.ofNat 16 (b2n (r.nan ≠ 0) + 2 * b2n (r.inf ≠ 0) + 4 * b2n (r.sat ≠ 0) + 8 * b2n (r.ftz ≠ 0)
    + 16 * b2n r.nonref + 32 * b2n r.cntSat + 64 * b2n ovr + 128 * b2n seed)

/-- The record of an operation before its first element: target, source code, final mode (after R81) and attributes. -/
def NumRec.start (dst : Fmt) (src : Nat) (mode : RMode) (grad strict : Bool) (opid step : Nat) : NumRec :=
  { dst := dst.code, src := src, rmode := mode.code, grad := grad, strict := strict, ud := dst == .zf8u, opid := opid, step := step }

/-- The OR of the status bits of several records of one instruction (R272). -/
def nstatJoin (rs : List NumRec) (ovr seed : Bool) : BitVec 16 :=
  rs.foldl (fun acc r => acc ||| r.nstat ovr seed) 0#16

end Sys2Proof.Machine
end

