-- ==== Sys2Proof/Machine/Scaling.lean ====
section
/-! DEFINITION. Scaling and quantisation (R129 to R161): scale modes, the fit and floor rules, the scale ledger, smoothing and rotation. -/
namespace Sys2Proof.Machine

/-- The elements of a stored row that share one code, by scale mode (R130); NONE and TENSOR have no blocks in a row. -/
def blockSize (smode : Nat) : Option Nat :=
  match smode with
  | 2 => some 128
  | 3 => some 128
  | 4 => some 32
  | 5 => some 64
  | 6 => some 128
  | _ => none

/-- The targets of the table of R135. -/
def Fmt.scalable (f : Fmt) : Bool :=
  f ≠ .b32 && f ≠ .zf24 && f ≠ .ze8 && f ≠ .zm1

/-- A producer may use the scale mode with the target (R130, R135). -/
def smodeAllowed (t : Fmt) (smode : Nat) : Bool :=
  smode ≤ 1 || (smode ≤ 6 && t.scalable)

/-- The measured magnitude of R136; +0 when there is no finite non-zero element. -/
def measure : List Val → Val
  | [] => Val.zero
  | x :: t =>
    let m := measure t
    if x.isFinite && Val.lt m x.abs then x.abs else m

/-- The mantissa m / 2^E(m). -/
def mantissa (m : Val) : Val := m.scale (-m.floorLog2)

/-- The fit rule of R137. -/
def fitSigma (m : Val) (t : Fmt) : Int :=
  if m.isZero then 0
  else
    let s := m.floorLog2 - t.maxExp
    if Val.lt (mantissa t.maxFinite) (mantissa m) then s + 1 else s

/-- The floor rule of R138. -/
def floorSigma (m : Val) (t : Fmt) : Int := if m.isZero then 0 else m.floorLog2 - t.maxExp

/-- The ZE8 code of a clamped exponent (R139). -/
def codeOfSigma (s : Int) : Nat := (min (max s (-96)) 158 + 96).toNat

/-- x × 2^(z - 96), NaN for the code 0xFF (R63, R142, R602). -/
def applyCode (x : Val) (z : Nat) : Val := if z = 0xFF then .nan else x.scale ((z : Int) - 96)

/-- A scale-ledger entry (R146); `rest` holds its reserved bytes. -/
structure LEntry where
  hist : List Nat
  pend : Nat
  stamp : Nat
  margin : Nat
  kovr : Nat
  hlen : Nat
  head : Nat
  nvalid : Nat
  flags : Nat
  tgt : Nat
  sigma : Nat
  ovrCnt : Nat
  ovrStep : Nat
  rest1 : List Nat
  rest2 : List Nat
  deriving DecidableEq, Repr, Inhabited

/-- Bytes lo to lo + n - 1 of a list, as a number. -/
def field (bs : List Nat) (lo n : Nat) : Nat := ofLe ((bs.drop lo).take n)

/-- The entry that 128 bytes hold (R146). -/
def LEntry.ofBytes (bs : List Nat) : LEntry :=
  { hist := (List.range 16).map (fun i => field bs (4 * i) 4), pend := field bs 64 4, stamp := field bs 68 4,
    margin := field bs 72 2, kovr := field bs 74 1, hlen := field bs 75 1, head := field bs 76 1, nvalid := field bs 77 1,
    flags := field bs 78 1, tgt := field bs 79 1, sigma := field bs 80 1, ovrCnt := field bs 84 4, ovrStep := field bs 88 4,
    rest1 := (bs.drop 81).take 3, rest2 := (bs.drop 92).take 36 }

/-- The 128 bytes of an entry (R146). -/
def LEntry.bytes (e : LEntry) : List Nat :=
  (e.hist.map (leBytes 4)).flatten ++ leBytes 4 e.pend ++ leBytes 4 e.stamp ++ leBytes 2 e.margin
  ++ [e.kovr, e.hlen, e.head, e.nvalid, e.flags, e.tgt, e.sigma] ++ e.rest1 ++ leBytes 4 e.ovrCnt ++ leBytes 4 e.ovrStep ++ e.rest2

def LEntry.valid (e : LEntry) : Bool := bitAt e.flags 0
def LEntry.isOpen (e : LEntry) : Bool := bitAt e.flags 1
def LEntry.seeding (e : LEntry) : Bool := bitAt e.flags 2
def LEntry.n (e : LEntry) : Nat := e.hlen % 16 + 1

/-- What opening an entry gives (R148). -/
inductive LOpen where
  /-- LEDGER_STEP_SKEW. -/
  | skew
  /-- The entry to use; `first` when this operation opened it for the step, `why` the seeding reason, `badMargin` when SCALE_MARGIN_BAD is reported. -/
  | ok (e : LEntry) (first : Bool) (why : Nat) (badMargin : Bool)
  deriving DecidableEq, Repr

/-- The history maximum over the slots written last; NaN when any is NaN (R148). -/
def LEntry.histMax (e : LEntry) : Val :=
  (List.range (e.nvalid % 32)).foldl
    (fun h i => h.maximum (Fmt.b32.decode (e.hist.getD ((e.head % 16 + e.n - (i + 1) % e.n) % e.n) 0))) Val.zero

/-- Sets FLAGS bits of an entry. -/
def LEntry.setFlag (e : LEntry) (i : Nat) (b : Bool) : LEntry := { e with flags := setBits e.flags i 1 (b2n b) }

/-- The pseudocode of R148: opens the entry for step `s` with target `t`. -/
def ledgerOpen (e : LEntry) (s : Nat) (t : Fmt) : LOpen :=
  if e.isOpen && s < e.stamp then .skew
  else if e.isOpen && s = e.stamp then .ok e false 0 false
  else
    let e1 : LEntry :=
      if e.isOpen then
        ({ e with hist := e.hist.set (e.head % 16) e.pend, head := (e.head % 16 + 1) % e.n,
                  nvalid := if e.nvalid < e.n then e.nvalid + 1 else e.nvalid } : LEntry).setFlag 0 true
      else e
    let e2 := (({ e1 with pend := 0, stamp := s } : LEntry).setFlag 3 false).setFlag 1 true
    let h := e2.histMax
    if !e2.valid then .ok (e2.setFlag 2 true) true 1 false
    else if h.isZero then .ok (e2.setFlag 2 true) true 2 false
    else
      let mu0 := Fmt.zf16.decode e2.margin
      let bad := !(Val.lt Val.zero mu0) || mu0 == .inf false
      let mu := if bad then Val.ofInt 1 else mu0
      let c := roundB32 .rup 0 (h.mul mu)
      if !(Val.lt c (.inf false)) then .ok (e2.setFlag 2 true) true 3 bad
      else .ok ({ e2 with sigma := codeOfSigma (fitSigma c t) }.setFlag 2 false) true 0 bad

/-- The pseudocode of R149: the code of a block with measured magnitude `m`, and whether the block is overridden. -/
def ledgerCode (e : LEntry) (m : Val) (t : Fmt) : Nat × Bool :=
  if e.seeding then (codeOfSigma (fitSigma m t), false)
  else
    let k := e.kovr % 16
    let ecov : Int := (e.sigma : Int) - 96 + t.maxExp
    if k ≠ 0 && !m.isZero && (decide (m.floorLog2 > ecov + k) || decide (m.floorLog2 < ecov - k)) then
      (codeOfSigma (fitSigma m t), true)
    else (e.sigma, false)

/-- Folds a block into PEND, and a non-finite element into PEND_NF (R149); an override counts and stamps (R154). -/
def ledgerFold (e : LEntry) (m : Val) (nonfin ovrs : Bool) (s : Nat) : LEntry :=
  let p := (Fmt.b32.decode e.pend).maximum (roundB32 .rup 0 m)
  let e := { e with pend := Fmt.b32.encode p }
  let e := if nonfin then e.setFlag 3 true else e
  if ovrs then { e with ovrCnt := cap32 (e.ovrCnt + 1), ovrStep := s } else e

/-- One element offered to a quantiser: the value presented to the scaling stage, its logical index, and whether it is active (R205). -/
structure QElem where
  x : Val
  e : Nat
  on : Bool := true
  deriving DecidableEq, Repr, Inhabited

/-- How a quantiser converts: target, scale mode, final mode (after R81), STRICT, draw key, draw slot, the TENSOR code and the step. -/
structure QSpec where
  tgt : Fmt
  smode : Nat
  mode : RMode
  strict : Bool
  key : DrawKey
  slot : Nat := 0
  tensor : Nat := 0x60
  step : Nat := 0
  deriving DecidableEq, Repr

/-- What a quantiser carries from block to block: the record, the ledger entry and the blocks overridden. -/
structure QAcc where
  cnt : NumRec
  entry : Option LEntry := none
  ovrs : Nat := 0
  deriving DecidableEq, Repr, Inhabited

/-- A quantised block: its code (none when no element is active) and each element's bits (none when inactive). -/
structure QBlock where
  code : Option Nat
  bits : List (Option Nat)
  deriving DecidableEq, Repr, Inhabited

/-- Converts the elements of a block under the code z (R140), counting each active one. -/
def quantElems (s : QSpec) (z : Nat) : List QElem → NumRec → List (Option Nat) × NumRec
  | [], r => ([], r)
  | q :: t, r =>
    if q.on then
      let draw := if s.mode = .sr then s.key.draw q.e s.slot else 0
      let (b, cls) := s.tgt.convert s.mode s.strict draw (q.x.scale (96 - (z : Int)))
      let (bs, r') := quantElems s z t (r.note q.x cls)
      (some b :: bs, r')
    else
      let (bs, r') := quantElems s z t r
      (none :: bs, r')

/-- Chooses a block's code (R130, R137 to R139, R149) and converts its elements. -/
def quantBlock (s : QSpec) (st : QAcc) (els : List QElem) : QBlock × QAcc :=
  let act := els.filter (·.on)
  if act.isEmpty then (⟨none, els.map (fun _ => none)⟩, st)
  else
    let m := measure (act.map (·.x))
    let nonfin := act.any (fun q => !q.x.isFinite)
    let (z, ovrs) :=
      match s.smode, st.entry with
      | 0, _ => (0x60, false)
      | 1, _ => (s.tensor, false)
      | 2, _ => (codeOfSigma (fitSigma m s.tgt), false)
      | 3, some e => ledgerCode e m s.tgt
      | _, _ => (codeOfSigma (floorSigma m s.tgt), false)
    let st := if s.smode = 3 then { st with entry := st.entry.map (fun e => ledgerFold e m nonfin ovrs s.step), ovrs := st.ovrs + b2n ovrs } else st
    let (bits, r) := quantElems s z els st.cnt
    (⟨some z, bits⟩, { st with cnt := r })

/-- Cuts a list into runs of n elements; the last holds the rest (R131). `fuel` bounds the runs. -/
def chunksOf {α : Type} (n : Nat) : Nat → List α → List (List α)
  | 0, _ => []
  | fuel + 1, l => if l.isEmpty then [] else l.take n :: chunksOf n fuel (l.drop n)

/-- Quantises the blocks of a row, first to last. -/
def quantBlocks (s : QSpec) : List (List QElem) → QAcc → List QBlock × QAcc
  | [], st => ([], st)
  | b :: t, st =>
    let (q, st1) := quantBlock s st b
    let (qs, st2) := quantBlocks s t st1
    (q :: qs, st2)

/-- Quantises one stored row: its blocks, in order. NONE and TENSOR take the row as one block. -/
def quantRow (s : QSpec) (st : QAcc) (row : List QElem) : List QBlock × QAcc :=
  match blockSize s.smode with
  | some b => quantBlocks s (chunksOf b row.length row) st
  | none => quantBlocks s [row] st

/-- The sign d_k of the rotation (R158): bit k mod 64 of ZCG-64 for index k div 64. -/
def rotSign (seed : W64) (rotId rotStep k : Nat) : Bool :=
  (zcg64 seed rotId (k / 64) rotStep).getLsbD (k % 64)

/-- One butterfly stage t over a run (R158 step 2). -/
def butterfly (t : Nat) (l : List Val) : List Val :=
  l.zipIdx.map (fun (x, i) =>
    if (i >>> t) % 2 = 0 then roundZA .rod 0 (x.add (l.getD (i + 2 ^ t) Val.zero))
    else roundZA .rod 0 ((l.getD (i - 2 ^ t) Val.zero).add x.neg))

/-- All stages of a run, from stage t on. -/
def butterflies : Nat → Nat → List Val → List Val
  | 0, _, l => l
  | n + 1, t, l => butterflies n (t + 1) (butterfly t l)

/-- The rotation of R158 over one aligned run whose first element has position k0. -/
def rotateRun (seed : W64) (rotId rotStep rlog k0 : Nat) (run : List Val) : List Val :=
  let signed := run.zipIdx.map (fun (x, i) => if rotSign seed rotId rotStep (k0 + i) then x.neg else x)
  (butterflies rlog 0 signed).map (fun x => x.scale (-((rlog / 2 : Nat) : Int)))

/-- Rotates each aligned run of a row that starts at position k0. -/
def rotateRow (seed : W64) (rotId rotStep rlog k0 : Nat) (row : List Val) : List Val :=
  ((chunksOf (2 ^ rlog) row.length row).zipIdx.map (fun (run, i) => rotateRun seed rotId rotStep rlog (k0 + i * 2 ^ rlog) run)).flatten

end Sys2Proof.Machine
end

