-- ==== Sys2Proof/Machine/Array.lean ====
section
/-! DEFINITION. The matrix array and the accumulator tiles: stationary banks, streams, chunk values and the order of addition (R97 to R107, R141, R173 to R182). `rd` gives the byte at an offset of the engine store. -/
namespace Sys2Proof.Machine

/-- n bytes from an offset, as a number. -/
def rdLe (rd : Nat → Nat) (off n : Nat) : Nat := ofLe ((List.range n).map (fun i => rd (off + i)))

/-- The bits of element i of a contiguous array at an offset (R52). -/
def readElem (rd : Nat → Nat) (f : Fmt) (off i : Nat) : Nat :=
  if f.bits ≥ 8 then rdLe rd (off + i * (f.bits / 8)) (f.bits / 8)
  else (rd (off + i * f.bits / 8) >>> (i * f.bits % 8)) % 2 ^ f.bits

/-- The scale code of element j of stored row r: the block of the row, the one byte of TENSOR, or 0x60 (R131, R602). -/
def scaleCode (rd : Nat → Nat) (smode so bpr r j : Nat) : Nat :=
  match blockSize smode with
  | some b => rd (so + r * bpr + j / b)
  | none => if smode = 1 then rd so else 0x60

/-- The first offset and the bytes per row of a scale word (R213). -/
def scaleWordOff (w : W64) : Nat := bitsOf w.toNat 0 22
def scaleWordBpr (w : W64) : Nat := bitsOf w.toNat 48 16

/-- The scaled value of element j of stored row r of a block (R129, R142). -/
def blockElem (rd : Nat → Nat) (f : Fmt) (off stride : Nat) (smode : Nat) (sw : W64) (r j : Nat) : Val :=
  applyCode (f.decode (readElem rd f (off + r * stride * 64) j)) (scaleCode rd smode (scaleWordOff sw) (scaleWordBpr sw) r j)

/-- The reduction positions of a stationary tile (R173). -/
def bankDepth (f : Fmt) : Nat := if f.bits = 16 then 128 else if f.bits = 8 then 256 else 512

/-- For each of n positions, the balanced sum in ZA float over the lines of the values that they hold there; a line may be short. -/
def sumAcross (mode : RMode) (levels n : Nat) (lines : List (List Val)) : List Val :=
  (List.range n).map (fun k => treeRoot (addZA mode 0) levels (lines.map (fun l => l.getD k Val.zero)))

/-- The magnitudes of lines of values. -/
def absLines (lines : List (List Val)) : List (List Val) := lines.map (fun l => l.map Val.abs)

/-- What a stationary bank holds after a load (R174): ROW puts element (i, j) at position i of column j, COL at position j of column i. The checksum
adders form the sums over its columns as it loads (R192 item 1, R447). -/
def loadBank (rd : Nat → Nat) (b : Block) : Bank :=
  let d := bankDepth b.fmt
  let cols := (List.range 128).map (fun n => (List.range d).map (fun k =>
    if b.col then blockElem rd b.fmt b.off b.stride b.smode b.scale n k
    else blockElem rd b.fmt b.off b.stride b.smode b.scale k n))
  { fmt := some b.fmt, smode := b.smode, cols, sums := sumAcross .rne 7 d cols, mags := sumAcross .rup 7 d (absLines cols) }

/-- Streamed rows 0 to m - 1 of an MMA, each of the length of the bank's depth (R173, R174). -/
def streamRows (rd : Nat → Nat) (b : Block) (depth m : Nat) : List (List Val) :=
  (List.range m).map (fun i => (List.range depth).map (fun k =>
    if b.col then blockElem rd b.fmt b.off b.stride b.smode b.scale k i
    else blockElem rd b.fmt b.off b.stride b.smode b.scale i k))

/-- The 128 products of chunk q of two operand vectors, times 2^-(RLOG mod 2) (R97, R141, R160). -/
def chunkProducts (a b : List Val) (q rlog : Nat) : List Val :=
  List.zipWith (fun x y => (x.mul y).scale (-((rlog % 2 : Nat) : Int))) ((a.drop (128 * q)).take 128) ((b.drop (128 * q)).take 128)

/-- The value of a chunk in float mode: the seven-level tree of R100. -/
def chunkFloat (ps : List Val) : Val := treeRoot (addZA .rne 0) 7 ps

/-- The integer that an exact integer value is. -/
def Val.toInt : Val → Int
  | .fin n m e => sigAt n m e 0
  | _ => 0

/-- The value of a chunk in integer mode: the exact sum (R107). -/
def chunkInt (ps : List Val) : Int := (ps.map Val.toInt).sum

/-- Merges a new leaf into the stack as a binary counter carries; `count` is the number of leaves before it (R180 step 4). -/
def pushLeaf : Nat → Nat → List Val → Val → List Val
  | 0, _, stk, v => v :: stk
  | fuel + 1, count, stk, v =>
    if count % 2 = 1 then
      match stk with
      | t :: rest => pushLeaf fuel (count / 2) rest (addZA .rne 0 t v)
      | [] => [v]
    else v :: stk

/-- Adds a float chunk value, the `idx`-th of the part, to an element (R101, R180). -/
def addChunkFloat (g idx : Nat) (mode : RMode) (draw : Nat) (v : Val) (el : TElem) : TElem :=
  let run := match el.run with
    | none => v
    | some r => addZA mode draw r v
  if (idx + 1) % g = 0 then { el with run := none, stk := pushLeaf 20 (idx / g) el.stk run }
  else { el with run := some run }

/-- Adds an integer chunk value to an element, marking it when the exact sum leaves the range of R65 (R69). -/
def addChunkInt (v : Int) (el : TElem) : TElem :=
  let s := el.sum + v
  { el with sum := s, ovf := match el.ovf with
      | some b => some b
      | none => if s < -(2 ^ 47) then some true else if s ≥ 2 ^ 47 then some false else none }

/-- G of a tile. -/
def Tile.g (t : Tile) : Nat := 2 ^ t.seglen

/-- The logical index of element (r, c) (R177). -/
def Tile.elemIndex (t : Tile) (r c : Nat) : Nat := t.ebase + r * t.erow + c

/-- The draw of a running-sum addition, slot 1 + c of R76, when the tile rounds with SR. -/
def Tile.runDraw (t : Tile) (seed : W64) (idx r c : Nat) : Nat :=
  if t.rmode = .sr then ({ seed := seed, opid := t.opid, step := t.step } : DrawKey).draw (t.elemIndex r c) (1 + t.chunkBase + idx) else 0

/-- 128 entries of a list: what it lacks is filled in. -/
def line128 {α : Type} (d : α) (l : List α) : List α := l.take 128 ++ List.replicate (128 - l.length) d

/-- The 128 × 128 elements of a tile; before its first chunk every element is empty. -/
def Tile.grid (t : Tile) : List (List TElem) := (line128 [] t.rows).map (line128 {})

/-- Adds the chunks q, q + 1, … of one element's two operand vectors in ascending order (R173, R180). -/
def addChunks (t : Tile) (seed : W64) (a b : List Val) (rlog idx0 r c : Nat) : Nat → Nat → TElem → TElem
  | 0, _, el => el
  | n + 1, q, el =>
    let ps := chunkProducts a b q rlog
    let el' :=
      if t.int then addChunkInt (chunkInt ps) el
      else addChunkFloat t.g (idx0 + q) t.rmode (t.runDraw seed (idx0 + q) r c) (chunkFloat ps) el
    addChunks t seed a b rlog idx0 r c n (q + 1) el'

/-- Chunks that an MMA on a bank of this format adds per streamed row (R173). -/
def chunksPerRow (f : Fmt) : Nat := bankDepth f / 128

/-- One addition of the checksum adders: ZA float in a mode, or exact modulo 2^48 in integer mode (R192, R447). -/
def checkAdd (int : Bool) (mode : RMode) (x y : Val) : Val := if int then Val.ofInt ((x.toInt + y.toInt) % 2 ^ 48) else addZA mode 0 x y

/-- The dot product that the checksum adders form: each product rounded, then a balanced tree of up to nine levels. DEDUCED, log entry 87. -/
def checkDot (int : Bool) (mode : RMode) (a b : List Val) : Val :=
  treeRoot (checkAdd int mode) (log2Ceil a.length) (List.zipWith (fun x y => if int then x.mul y else roundZA mode 0 (x.mul y)) a b)

/-- Accumulates the checks of a pass into those of the tile, line by line. -/
def addLines (int : Bool) (mode : RMode) (old new : List Val) : List Val :=
  (List.range 128).map (fun i => checkAdd int mode (old.getD i Val.zero) (new.getD i Val.zero))

/-- The checks of a tile after a pass (R192 items 2 to 4, R447). -/
def passChecks (int : Bool) (j : MmaJob) (bk : Bank) (c : Checks) : Checks :=
  let rows := j.rows.map (fun l => l.map (fun x => x.scale (-((j.rlog % 2 : Nat) : Int))))
  let d := bk.sums.length
  let colSums := sumAcross .rne 7 d rows
  let colMags := sumAcross .rup 7 d (absLines rows)
  { passes := c.passes + 1,
    row := addLines int .rne c.row (rows.map (fun l => checkDot int .rne l bk.sums)),
    col := addLines int .rne c.col (bk.cols.map (fun l => checkDot int .rne colSums l)),
    rowMag := addLines int .rup c.rowMag ((absLines rows).map (fun l => checkDot int .rup l bk.mags)),
    colMag := addLines int .rup c.colMag ((absLines bk.cols).map (fun l => checkDot int .rup colMags l)) }

/-- An MMA pass: the chunk values of rows 0 to M - 1, and +0 as the value of each chunk in rows M to 127 (R176), with the checks (R192). -/
def mmaPass (seed : W64) (j : MmaJob) (bk : Bank) (t : Tile) : Tile :=
  let n := chunksPerRow (bk.fmt.getD .zf16)
  let rows := t.grid.zipIdx.map (fun (row, r) =>
    row.zipIdx.map (fun (el, c) => addChunks t seed (j.rows.getD r []) (bk.cols.getD c []) j.rlog j.chunk r c n 0 el))
  { t with rows := rows, added := t.added + n, chk := passChecks t.int j bk t.chk }

/-- Pads with leaves of +0 until 2^LEAF_LOG leaves are formed (R185 D0). -/
def padLeaves : Nat → Nat → List Val → List Val
  | 0, _, stk => stk
  | n + 1, count, stk => padLeaves n (count + 1) (pushLeaf 20 count stk Val.zero)

/-- The subtree root of a float element: the open segment is closed as a leaf when it holds a chunk (R185 D0). -/
def elemRoot (t : Tile) (el : TElem) : Val :=
  let full := t.added / t.g
  let (stk, count) := match el.run with
    | some v => (pushLeaf 20 full el.stk v, full + 1)
    | none => (el.stk, full)
  ((padLeaves (2 ^ t.leafLog - count) count stk).head?).getD Val.zero

/-- The subtree roots of a float tile, row by row. -/
def Tile.roots (t : Tile) : List (List Val) := t.grid.map (fun row => row.map (elemRoot t))

/-- An integer element as the drain sees it: an overflowed one is an infinity (R69). -/
def intElemVal (el : TElem) : Val :=
  match el.ovf with
  | none => Val.ofInt el.sum
  | some first => if el.sum > 0 then .inf false else if el.sum < 0 then .inf true else .inf first

/-! The comparison at D1 (R193, R447) -/

/-- The 128 values of a line of an accumulator tile as D1 sees them: row `line` below 128, else column `line - 128`; each is none where an integer
element has overflowed. -/
def Tile.lineVals (t : Tile) (line : Nat) : List (Option Val) :=
  let g := t.grid
  let cell := fun (r c : Nat) =>
    let el := (g.getD r []).getD c {}
    if t.int then (if el.ovf.isSome then none else some (Val.ofInt el.sum)) else some (elemRoot t el)
  (List.range 128).map (fun i => if line < 128 then cell line i else cell i (line - 128))

/-- The sum, the check and the magnitude check of a line, or none where the comparison leaves the line out: a value that is not finite, or an
overflowed element (R193, R447). -/
def Tile.lineSums (t : Tile) (line : Nat) : Option (Val × Val × Val) :=
  let vals := t.lineVals line
  let sum := treeRoot (checkAdd t.int .rne) 7 (vals.map (·.getD Val.zero))
  let i := line % 128
  let (chk, mag) := if line < 128 then (t.chk.row.getD i Val.zero, t.chk.rowMag.getD i Val.zero)
                    else (t.chk.col.getD i Val.zero, t.chk.colMag.getD i Val.zero)
  if vals.all (·.isSome) && sum.isFinite && chk.isFinite && mag.isFinite then some (sum, chk, mag) else none

/-- D of R447. -/
def Tile.depth (t : Tile) : Nat := 7 + (t.g - 1) + t.leafLog + 16 + t.chk.passes

/-- A line differs from its check: beyond 2^TOLX × 1.01 × D × 2^-36 × A in float mode, at all in integer mode (R193, R447). -/
def Tile.lineDiffers (t : Tile) (tolx : Nat) (x : Val × Val × Val) : Bool :=
  let diff := (x.1.add x.2.1.neg).abs
  if t.int then !diff.isZero
  else Val.lt ((Val.ofInt ((2 ^ tolx * 101 * t.depth : Nat) : Int)).mul (x.2.2.scale (-36))) ((Val.ofInt 100).mul diff)

/-- The first line of a tile that does not match its check, rows before columns. `upset` names a line that an upset in the array has moved beyond
the tolerance. A tile without a pass matches: its sums and checks are all zero. DESIGN CHOICE, log entry 7. -/
def Tile.mismatch (t : Tile) (tolx : Nat) (upset : Option Nat) : Option Nat :=
  if t.chk.passes = 0 && upset.isNone then none
  else (List.range 256).find? (fun l =>
    match t.lineSums l with
    | some x => decide (upset = some l) || t.lineDiffers tolx x
    | none => false)

end Sys2Proof.Machine
end

