-- ==== Sys2Proof/Machine/Drain.lean ====
section
/-! DEFINITION. The drain as a computation on tile rows: the drain descriptor (R219, R220), the fused functions (R186 to R188), side outputs (R187, R605), and stages D2 to D9 of R185. -/
namespace Sys2Proof.Machine

/-- A drain descriptor (R219). -/
structure DrainDesc where
  out : Nat
  ostride : Nat
  ocol : Nat
  tgt : Nat
  ud : Bool
  strict : Bool
  grad : Bool
  rmode : Nat
  smode : Nat
  fn : Nat
  rlog : Nat
  smooth : Bool
  fnA : Nat
  ledger : Nat
  scale : Nat
  scstride : Nat
  save : Nat
  savePush : Bool
  gfmt : Nat
  gsmode : Nat
  gpop : Bool
  saveAddr : Nat
  gaddr : Nat
  gscale : Nat
  smoothOff : Nat
  rotId : Nat
  rotStep : Nat
  recOff : Nat
  recNone : Bool
  dq : Nat
  deriving DecidableEq, Repr, Inhabited

/-- Reads a drain descriptor from its 64 bytes (R219). -/
def DrainDesc.ofBytes (b : List Nat) : DrainDesc :=
  let f := field b
  { out := bitsOf (f 0 4) 0 22, ostride := bitsOf (f 4 2) 0 12, ocol := f 6 2, tgt := bitsOf (f 8 1) 0 4, ud := bitAt (f 8 1) 4,
    strict := bitAt (f 8 1) 5, grad := bitAt (f 8 1) 6, rmode := bitsOf (f 9 1) 0 3, smode := bitsOf (f 9 1) 3 3,
    fn := bitsOf (f 10 1) 0 5, rlog := bitsOf (f 11 1) 0 4, smooth := bitAt (f 11 1) 4, fnA := f 12 2, ledger := f 14 2,
    scale := bitsOf (f 16 4) 0 22, scstride := f 20 2, save := bitsOf (f 22 1) 0 2, savePush := bitAt (f 22 1) 2,
    gfmt := bitsOf (f 23 1) 0 4, gsmode := bitsOf (f 23 1) 4 3, gpop := bitAt (f 23 1) 7, saveAddr := f 24 4, gaddr := f 28 4,
    gscale := bitsOf (f 32 4) 0 22, smoothOff := bitsOf (f 36 4) 0 22, rotId := f 40 4, rotStep := f 44 4,
    recOff := bitsOf (f 48 4) 0 22, recNone := bitAt (f 48 4) 31, dq := bitsOf (f 52 4) 0 22 }

/-- The operand that a fused function reads (R186). -/
inductive FnOperand where
  | none | g | b | gOrB
  deriving DecidableEq, Repr

/-- The functions of R186 by code; `none` is a reserved code. -/
def fnOperand (code : Nat) : Option FnOperand :=
  if code ≤ 8 then some .none
  else if code = 9 then some .b
  else if code = 0x10 || code = 0x11 then some .gOrB
  else if 0x12 ≤ code && code ≤ 0x15 then some .g
  else if code = 0x16 then some .b
  else none

/-- GSRC[3:0] names a value format that a derivative operand may have (R186). -/
def gValueFmt (c : Nat) : Bool := c = 0 || c = 2 || c = 3

/-- The function and its GSRC format go together (R186). -/
def gsrcOk (fn gfmt : Nat) : Bool :=
  match fnOperand fn with
  | some .none => true
  | some .g => gValueFmt gfmt
  | some .b => gfmt = 0xB
  | some .gOrB => gValueFmt gfmt || gfmt = 0xB
  | none => true

/-- The first bad field of a descriptor, as its byte, by R220; `odd` says that the named tile is odd (R189). The reserved bits of G_SCALE count
whatever the function reads: DESIGN CHOICE, log entry 88. -/
def drainDescBad (b : List Nat) (odd : Bool) : Option Nat :=
  let f := field b
  let checks : List (Nat × Bool) :=
    [(0, f 0 4 ≥ 2 ^ 22), (4, f 4 2 ≥ 2 ^ 12), (8, bitAt (f 8 1) 7), (9, bitsOf (f 9 1) 6 2 ≠ 0), (10, bitsOf (f 10 1) 5 3 ≠ 0),
     (11, bitsOf (f 11 1) 5 3 ≠ 0 || (let r := bitsOf (f 11 1) 0 4; r ≠ 0 && (r < 5 || r > 8)) || (bitsOf (f 11 1) 0 4 = 8 && odd)),
     (16, f 16 4 ≥ 2 ^ 22), (22, bitsOf (f 22 1) 3 5 ≠ 0), (23, !gsrcOk (bitsOf (f 10 1) 0 5) (bitsOf (f 23 1) 0 4)),
     (32, f 32 4 ≥ 2 ^ 22), (36, f 36 4 ≥ 2 ^ 22), (48, bitsOf (f 48 4) 22 9 ≠ 0), (52, f 52 4 ≥ 2 ^ 22), (56, f 56 8 ≠ 0)]
  (checks.find? (·.2)).map (·.1)

/-! The exact functions of R188, to more than 70 bits: what the bound on the module's own results is measured against -/

/-- ln 2 × 2^192, cut to an integer. -/
def ln2Fix : Nat := 4350955369971217654477563090224794165364344896676135745069

/-- e^-t for t ≥ 0, by t = k ln 2 + r and the series of e^-r; 0 from t = 2^12 on, far below every bound that uses it. -/
def expNeg (t : Val) : Val :=
  match t with
  | .fin _ m e =>
    if m ≠ 0 && decide (12 ≤ (Nat.log2 m : Int) + e) then Val.zero
    else
      let fix := if e < -192 then m >>> (-192 - e).toNat else m <<< (e + 192).toNat
      let k := fix / ln2Fix
      let r := fix - k * ln2Fix
      let s := (List.range 45).foldr (fun n acc => 2 ^ 192 - ((r * acc) >>> 192) / (n + 1)) (2 ^ 192)
      Val.mk false s (-192 - (k : Int))
  | _ => .nan

/-- 1 / (1 + e^-z). -/
def sigmoidOf (z : Val) : Val :=
  let x := expNeg z.abs
  (if z.isNeg then x else Val.ofInt 1).divSticky ((Val.ofInt 1).add x)

/-- σ(z)(1 - σ(z)) = e^-|z| / (1 + e^-|z|)². -/
def sigmoidSlope (z : Val) : Val :=
  let x := expNeg z.abs
  let d := (Val.ofInt 1).add x
  x.divSticky (d.mul d)

/-- 2 × 0.79788456, so that 1 + tanh(u) = 2 σ(2u). -/
def geluK : Val := (Val.ofInt (2 * 79788456)).divSticky (Val.ofInt 100000000)

/-- k × 0.044715. -/
def geluC (k : Nat) : Val := (Val.ofInt (k * 44715)).divSticky (Val.ofInt 1000000)

/-- Twice the argument of tanh in GELU. -/
def geluArg (x : Val) : Val := geluK.mul (x.add ((geluC 1).mul (x.mul (x.mul x))))

/-- The exact functions of R186 that R188 approximates, on finite operands. -/
def fusedExact (code : Nat) (x g : Val) : Val :=
  match code with
  | 0x03 => x.mul (sigmoidOf (geluArg x))
  | 0x04 => x.mul (sigmoidOf x)
  | 0x05 => sigmoidOf x
  | 0x06 =>
    let y := expNeg (x.abs.scale 1)
    let t := ((Val.ofInt 1).add y.neg).divSticky ((Val.ofInt 1).add y)
    if x.isNeg then t.neg else t
  | 0x07 => if x.isNeg then expNeg x.abs
            else if !x.isZero && decide (12 ≤ x.floorLog2) then Val.mk false 1 4096
            else (Val.ofInt 1).divSticky (expNeg x)
  | 0x12 =>
    let slope := geluK.mul ((Val.ofInt 1).add ((geluC 3).mul (g.mul g)))
    x.mul ((sigmoidOf (geluArg g)).add ((g.mul slope).mul (sigmoidSlope (geluArg g))))
  | 0x13 => x.mul ((sigmoidOf g).add (g.mul (sigmoidSlope g)))
  | 0x14 => x.mul (sigmoidSlope g)
  | _ => x.mul ((sigmoidSlope (g.scale 1)).scale 2)

/-- A free result within 2^-28 × max(1, |result|) of the exact one (R188). -/
def withinBound (free exact : Val) : Val :=
  let c := roundZA .rod 0 free
  let one := Val.ofInt 1
  let lim := (if Val.lt one exact.abs then exact.abs else one).scale (-28)
  if c.isFinite && Val.le (c.add exact.neg).abs lim then c else roundZA .rod 0 exact

/-- The result of an approximated function on finite operands: a free value within the bound. DESIGN CHOICE, log entry 4. -/
def fusedFinite (code : Nat) (x g : Val) : Val := withinBound (Config.fusedFn code x g) (fusedExact code x g)

/-- The exact factor of x in a derivative is negative: that of GELU or SILU far enough below 0, where its exponential may be too small to be told from 0
(R186). -/
def factorNeg (code : Nat) (g : Val) : Bool :=
  (code = 0x12 || code = 0x13) && g.isNeg && (let f := fusedExact code (Val.ofInt 1) g; f.isZero || f.isNeg)

/-- The approximated functions of R188 on finite inputs (a free value within its bound), and the limits of its tables. -/
def fusedApprox (code : Nat) (x g : Val) : Val :=
  if x.isNan || g.isNan then .nan
  else match code with
    | 0x03 => match x with   -- GELU by the formula: 0.5 x (1 + tanh(..)) gives +Inf, and -Inf × 0 = NaN
      | .inf n => if n then .nan else .inf false
      | _ => fusedFinite code x Val.zero
    | 0x04 => match x with   -- SILU: Inf × 1, -Inf × 0
      | .inf n => if n then .nan else .inf false
      | _ => fusedFinite code x Val.zero
    | 0x05 => match x with
      | .inf n => if n then Val.zero else Val.ofInt 1
      | _ => fusedFinite code x Val.zero
    | 0x06 => match x with
      | .inf n => Val.ofInt (if n then -1 else 1)
      | _ => fusedFinite code x Val.zero
    | 0x07 => match x with
      | .inf n => if n then Val.zero else .inf false
      | _ => fusedFinite code x Val.zero
    | _ =>                   -- D_GELU, D_SILU, D_SIGMOID, D_TANH
      match g with
      | .inf n =>
        let factor := if (code = 0x12 || code = 0x13) && !n then Val.ofInt 1 else Val.zero
        roundZA .rod 0 (x.mul factor)
      | _ =>
        match x with
        | .inf n => .inf (n != factorNeg code g)
        | _ => fusedFinite code x g

/-- The fused function of D5 (R186): x, the parameter a, the derivative operand g and the mask bit b. -/
def applyFn (code : Nat) (a x g : Val) (b : Bool) : Val :=
  let ax := roundZA .rod 0 (a.mul x)
  match code with
  | 0x00 => x
  | 0x01 => x.maximum Val.zero
  | 0x02 => if Val.lt Val.zero x then x else ax
  | 0x08 => ax
  | 0x09 => if b then ax else Val.zero
  | 0x10 => if b then x else Val.zero
  | 0x11 => if b then x else ax
  | 0x16 => if b then ax else Val.zero
  | _ => fusedApprox code x g

/-- The operand of D5: values, or mask bits, row by row. -/
inductive GOperand where
  | none
  | vals (rows : List (List Val))
  | bits (rows : List (List Bool))
  deriving DecidableEq, Repr

/-- g and b at an element; D_RELU and D_LRELU take b = 1 where a value is above zero (R186). -/
def GOperand.at (o : GOperand) (r c : Nat) : Val × Bool :=
  match o with
  | .none => (Val.zero, false)
  | .vals rows =>
    let v := (rows.getD r []).getD c Val.zero
    (v, Val.lt Val.zero v)
  | .bits rows => (Val.zero, (rows.getD r []).getD c false)

/-- Bytes of a row of W elements and of its scale codes in a piece (R249, R131). -/
def pieceRowBytes (f : Fmt) (w : Nat) : Nat := if f = .zm1 then w / 8 else f.bytes w
def rowCodes (smode w : Nat) : Nat :=
  match blockSize smode with
  | some b => ceilDiv w b
  | none => 0

/-- The data bytes of a piece of 128 rows of W elements before padding (R249); a TENSOR tensor carries its one code (R602). -/
def pieceLen (f : Fmt) (smode w : Nat) : Nat :=
  128 * pieceRowBytes f w + (if smode = 1 then 1 else 128 * rowCodes smode w)

/-- Pads a length to a multiple of 64 (R247). -/
def pad64 (n : Nat) : Nat := 64 * ceilDiv n 64

/-- Reads an operand laid out as the data of a piece: rows at `off`, scale codes at `so` (R186). -/
def readOperand (rd : Nat → Nat) (f : Fmt) (smode off so w : Nat) : GOperand :=
  if f = .zm1 then
    .bits ((List.range 128).map (fun r => (List.range w).map (fun c => readElem rd .zm1 off (r * w + c) = 1)))
  else
    .vals ((List.range 128).map (fun r => (List.range w).map (fun c =>
      applyCode (f.decode (readElem rd f off (r * w + c))) (scaleCode rd smode so (rowCodes smode w) r c))))

/-- Packs bits of a mask row into bytes (R52). -/
def packBits : Nat → List Bool → List Nat
  | 0, _ => []
  | n + 1, l => ((l.take 8).zipIdx.map (fun (b, i) => b2n b * 2 ^ i)).sum :: packBits n (l.drop 8)

/-- The bytes that writing elements i0, i0 + 1, … of an array at `off` changes; `none` keeps an element's stored bits (R52, R205). -/
def packElems (rd : Nat → Nat) (f : Fmt) (off i0 : Nat) (bits : List (Option Nat)) : List (Nat × Nat) :=
  if f.bits ≥ 8 then
    let n := f.bits / 8
    (bits.zipIdx.map (fun (b, i) => match b with
      | some x => (leBytes n x).zipIdx.map (fun (y, k) => (off + (i0 + i) * n + k, y))
      | none => [])).flatten
  else
    let per := 8 / f.bits
    let first := i0 / per
    let last := (i0 + bits.length - 1) / per
    (List.range (last + 1 - first)).filterMap (fun j =>
      let a := off + first + j
      let old := rd a
      let touched := (List.range per).any (fun s =>
        let idx := (first + j) * per + s
        decide (i0 ≤ idx) && ((bits.getD (idx - i0) none).isSome) && decide (idx < i0 + bits.length))
      if touched then
        some (a, (List.range per).foldl (fun acc s =>
          let idx := (first + j) * per + s
          if i0 ≤ idx then
            match bits.getD (idx - i0) none with
            | some x => setBits acc (s * f.bits) f.bits x
            | none => acc
          else acc) old)
      else none)

/-- The value of a preload element at (r, c) (R183). -/
def preloadAt (rd : Nat → Nat) (p : Preload) (r c : Nat) : Val :=
  match p.shape with
  | 0 => p.fmt.decode (readElem rd p.fmt (p.off + r * p.stride * 64) c)
  | 1 => p.fmt.decode (readElem rd p.fmt p.off c)
  | _ => p.fmt.decode (readElem rd p.fmt p.off r)

/-- D2 and D3 of a float element: T, with the preload added (R103). -/
def stageD2 (rd : Nat → Nat) (t : Tile) (root : Val) (r c : Nat) : Val :=
  match t.pre with
  | some p => addZA .rne 0 root (preloadAt rd p r c)
  | none => root

/-- D3 of an integer element: ZA float with ROD, times 2^(zr + zc - 192) (R144). `w` is the row's width, c its column. -/
def stageD3 (rd : Nat → Nat) (dq : Nat) (el : TElem) (r c : Nat) : Val :=
  roundZA .rod 0 (applyCode (applyCode (roundZA .rod 0 (intElemVal el)) (rd (dq + r))) (rd (dq + 128 + c)))

/-- What one drained row gives: stored bits, block codes, the element values before D5 (for the side output). -/
structure DrainRow where
  bits : List (Option Nat)
  codes : List (Option Nat)
  x5 : List Val
  deriving DecidableEq, Repr

/-- What the stages from D5 on need beside the row. -/
structure DrainCtx where
  desc : DrainDesc
  fmt : Fmt
  spec : QSpec
  seed : W64
  smooth : List Nat
  g : GOperand

/-- D5 to D9 of one row: function, smoothing, rotation, measurement, codes and conversion (R161, R185). `es` are the logical indices. -/
def drainRow (k : DrainCtx) (acc : QAcc) (r : Nat) (xs : List Val) (es : List Nat) : DrainRow × QAcc :=
  let a := Fmt.zf16.decode k.desc.fnA
  let ys := xs.zipIdx.map (fun (x, c) => let (g, b) := k.g.at r c; applyFn k.desc.fn a x g b)
  let ys := if k.desc.smooth then ys.zipIdx.map (fun (y, c) => roundZA .rod 0 (applyCode y (k.smooth.getD c 0x60))) else ys
  let ys := if k.desc.rlog = 0 then ys else rotateRow k.seed k.desc.rotId k.desc.rotStep k.desc.rlog k.desc.ocol ys
  let (blocks, acc) := quantRow k.spec acc (List.zipWith (fun y e => { x := y, e := e }) ys es)
  (⟨(blocks.map (·.bits)).flatten, blocks.map (·.code), xs⟩, acc)

/-- Every row of a drain, top to bottom. -/
def drainRows (k : DrainCtx) : Nat → QAcc → List (List Val × List Nat) → List DrainRow × QAcc
  | _, acc, [] => ([], acc)
  | r, acc, (xs, es) :: t =>
    let (row, acc1) := drainRow k acc r xs es
    let (rows, acc2) := drainRows k (r + 1) acc1 t
    (row :: rows, acc2)

/-- The side output of D4 as the data of a piece, before padding (R187, R605, R249): ZF16, ZF8 with ROW scales by the fit rule, or ZM1. -/
def sideOutput (save w : Nat) (rows : List (List Val)) : List Nat :=
  match save with
  | 1 => (rows.map (fun row => (row.map (fun x => leBytes 2 (Fmt.zf16.convert .rne false 0 x).1)).flatten)).flatten
  | 2 =>
    let q := rows.map (fun row =>
      let bs := chunksOf 128 row.length row
      bs.map (fun b =>
        let z := codeOfSigma (fitSigma (measure b) .zf8)
        (z, b.map (fun x => (Fmt.zf8.convert .rne false 0 (x.scale (96 - (z : Int)))).1))))
    (q.map (fun bs => (bs.map (·.2)).flatten)).flatten ++ (q.map (fun bs => bs.map (·.1))).flatten
  | _ => (rows.map (fun row => packBits (w / 8) (row.map (fun x => Val.lt Val.zero x)))).flatten

/-- The mask bits of a fallback: 1 where the value that D4 would have stored is above zero after its conversion (R254). -/
def fallbackBits (save w : Nat) (rows : List (List Val)) : List Nat :=
  (rows.map (fun row =>
    let bs := chunksOf 128 row.length row
    packBits (w / 8) ((bs.map (fun b =>
      let z := codeOfSigma (fitSigma (measure b) .zf8)
      b.map (fun x =>
        if save = 1 then Val.lt Val.zero (Fmt.zf16.decode (Fmt.zf16.convert .rne false 0 x).1)
        else Val.lt Val.zero (Fmt.zf8.decode (Fmt.zf8.convert .rne false 0 (x.scale (96 - (z : Int)))).1)))).flatten))).flatten

/-- The norm-tap term of a stored element: the exact square of q × 2^(z - 96), +Inf beyond binary32's finite range (R190). -/
def tapTerm (f : Fmt) (bits z : Nat) : Val :=
  let v := applyCode (f.decode bits) z
  if v.isFinite && Val.lt b32Max v.abs then .inf false else v.mul v

/-- The terms that a drained row taps (R190). -/
def rowTaps (f : Fmt) (smode : Nat) (row : DrainRow) : List Val :=
  row.bits.zipIdx.map (fun (b, i) =>
    let blk := match blockSize smode with
      | some n => i / n
      | none => 0
    tapTerm f (b.getD 0) ((row.codes.getD blk none).getD 0x60))

end Sys2Proof.Machine
end

