-- ==== Sys2Proof/Machine/Sparse.lean ====
section
/-! DEFINITION. Sparse maps from natural numbers in one canonical form: keys strictly rising, and no entry equal to what an unlisted key reads as. Memory, registers, instruction memory and event counters are kept so. -/
namespace Sys2Proof.Machine

/-- The value at a key; an unlisted key reads as `d`. -/
def spRead {α : Type} (d : α) : List (Nat × α) → Nat → α
  | [], _ => d
  | (k, x) :: t, a => if a = k then x else if a < k then d else spRead d t a

/-- Writes a key in order; writing the default removes the entry. -/
def spWrite {α : Type} [DecidableEq α] (d : α) : List (Nat × α) → Nat → α → List (Nat × α)
  | [], a, v => if v = d then [] else [(a, v)]
  | (k, x) :: t, a, v =>
    if a < k then (if v = d then (k, x) :: t else (a, v) :: (k, x) :: t)
    else if a = k then (if v = d then t else (k, v) :: t)
    else (k, x) :: spWrite d t a v

/-- The canonical form, above a lower bound. -/
def spWfFrom {α : Type} [DecidableEq α] (d : α) : Nat → List (Nat × α) → Bool
  | _, [] => true
  | lo, (k, x) :: t => decide (lo ≤ k) && decide (x ≠ d) && spWfFrom d (k + 1) t

/-- The canonical form. -/
def spWf {α : Type} [DecidableEq α] (d : α) (l : List (Nat × α)) : Bool := spWfFrom d 0 l

/-- Writes a list of pairs, first to last. -/
def spWriteAll {α : Type} [DecidableEq α] (d : α) (l : List (Nat × α)) (ws : List (Nat × α)) : List (Nat × α) :=
  ws.foldl (fun m w => spWrite d m w.1 w.2) l

/-- Removes every key in lo to hi - 1, which then reads as the default. -/
def spClear {α : Type} (l : List (Nat × α)) (lo hi : Nat) : List (Nat × α) :=
  l.filter (fun e => decide (e.1 < lo) || decide (hi ≤ e.1))

/-- Copies `n` keys from src to dst (the source is read whole before the destination changes). -/
def spCopy {α : Type} [DecidableEq α] (d : α) (l : List (Nat × α)) (src dst n : Nat) : List (Nat × α) :=
  let moved := (l.filter (fun e => decide (src ≤ e.1) && decide (e.1 < src + n))).map (fun e => (e.1 - src + dst, e.2))
  spWriteAll d (spClear l dst (dst + n)) moved

end Sys2Proof.Machine
end

