-- ==== Sys2Proof/Machine/MemTypes.lean ====
section
/-! DEFINITION. The state of dispatch (R282 to R315), of the epoch controller with the Jersey and Tulle stores (R243 to R257, R329 to R349) and of event delivery, as plain data. -/
namespace Sys2Proof.Machine

/-- An event record (R15). -/
structure Event where
  time : Nat
  page : Nat
  code : Nat
  sev : Nat
  modid : Nat
  d0 : Nat := 0
  d1 : Nat := 0
  d2 : Nat := 0
  d3 : Nat := 0
  deriving DecidableEq, Repr, Inhabited

/-- A queue state (R284). -/
inductive QState where
  | disabled | active | halted | draining
  deriving DecidableEq, Repr, Inhabited

def QState.code : QState → Nat
  | .disabled => 0
  | .active => 1
  | .halted => 2
  | .draining => 3

/-- A Queue Table entry as dispatch holds it (R283), with its place in the cache (R287, R288). -/
structure Queue where
  ring : Nat := 0
  rlog : Nat := 4
  cring : Nat := 0
  tail : Nat := 0
  head : Nat := 0
  free : Nat := 0
  doneIdx : Nat := 0
  prio : Nat := 0
  tailsrc : Bool := false
  pin : Bool := false
  irqHalt : Bool := false
  state : QState := .disabled
  tailEvc : Nat := 0
  msix : Nat := 0
  errCode : Nat := 0
  errIdx : Nat := 0
  tasks : Nat := 0
  cached : Bool := false
  pinned : Bool := false
  used : Nat := 0
  deriving DecidableEq, Repr, Inhabited

/-- A signal of a task descriptor (R294): counter, module ID, REMOTE and increment. -/
structure Signal where
  counter : Nat
  modid : Nat
  remote : Bool
  inc : Nat
  deriving DecidableEq, Repr, Inhabited

/-- A task descriptor (R294). -/
structure TaskDesc where
  kid : Nat := 0
  klen : Nat := 0
  entry : Nat := 0
  kaddr : Nat := 0
  gang : Bool := false
  serial : Bool := false
  irq : Bool := false
  opt : Bool := false
  stepBound : Bool := false
  step : Nat := 0
  pmask : Nat := 0
  imask : Nat := 0
  waits : List (Nat × Nat) := []
  sigs : List Signal := []
  args : List W64 := []
  deriving DecidableEq, Repr, Inhabited

/-- A task that dispatch has read and that has not completed (R292, R296 to R306). `placed` lists the logical engines a kernel
has been placed on, `begun` those whose kernel has begun, `ended` those whose kernel has ended. -/
structure Task where
  q : Nat
  idx : Nat
  desc : TaskDesc
  ready : Bool := false
  readySeq : Nat := 0
  reserved : List Nat := []
  placed : List Nat := []
  begun : List Nat := []
  ended : List Nat := []
  loaded : Bool := false
  noStart : Bool := false
  faultCode : Nat := 0
  faultEng : Nat := 0x1FF
  suspect : Option Nat := none
  tStart : Nat := 0
  tEnd : Nat := 0
  redone : Bool := false
  deriving DecidableEq, Repr, Inhabited

/-- A completed optimiser task whose signals wait for the clip factor of its step to be final for it (R308). -/
structure Held where
  q : Nat
  idx : Nat
  desc : TaskDesc
  deriving DecidableEq, Repr, Inhabited

/-- A completed task whose index DONE has not passed, or that holds FREE back (R293). -/
structure DoneTask where
  q : Nat
  idx : Nat
  opt : Bool
  step : Nat
  ended : Bool
  deriving DecidableEq, Repr, Inhabited

/-- Dispatch: queues by number, tasks, held signals, the redo list of R309 (queue, index, step), event counters by number, waiting clock starts. -/
structure Dispatch where
  queues : List (Nat × Queue) := []
  tasks : List Task := []
  held : List Held := []
  done : List DoneTask := []
  redo : List (Nat × Nat × Nat) := []
  redoFull : Option Nat := none
  stopOpt : Option Nat := none
  counters : List (Nat × Nat) := []
  evHi : Nat := 0
  lastQueue : Nat := 0
  seq : Nat := 0
  wakes : List Nat := []
  lastWake : Option Nat := none
  stopped : Bool := false
  deriving DecidableEq, Repr, Inhabited

/-- EP_STATUS.STATE (R334). -/
inductive EpState where
  | idle | opened | voting | prepared | rollingBack | rolledBack
  deriving DecidableEq, Repr, Inhabited

def EpState.code : EpState → Nat
  | .idle => 0
  | .opened => 1
  | .voting => 2
  | .prepared => 3
  | .rollingBack => 4
  | .rolledBack => 5

/-- The S state of a page (R330). DRAINING lasts only within a SNAPSHOT_PAGE_DRAIN command, so no state between commands holds it. DEDUCED, log entry 74. -/
inductive SState where
  | none | pending | shadowed (slot : Nat)
  deriving DecidableEq, Repr, Inhabited

/-- A protected page that differs from the state of the last seals (R330): its E slot with the OPT mark of R331, and its S state. -/
structure PageSt where
  eslot : Option Nat := none
  opt : Bool := false
  s : SState := .none
  deriving DecidableEq, Repr, Inhabited

/-- The decision of a step (R340, R343). -/
inductive Decision where
  | none | commit | rollback
  deriving DecidableEq, Repr, Inhabited

/-- A message of the vote as received (R339 to R343): its sender (of a veto the module that raised it), the ordinal of the seal it belongs to (log entry
14), its level in the recursive doubling (R430), and what it combines: the health words, the number of update-done flags, the lowest STEP and RNG_EPOCH, and whether
these differ. Kind 1 is of phase 1, 2 of phase 2, 3 a veto. -/
structure Vote where
  src : Nat
  ord : Nat
  kind : Nat
  lvl : Nat := 0
  word : BitVec 32
  upd : Nat
  skew : Bool := false
  step : Nat
  epoch : Nat
  deriving DecidableEq, Repr, Inhabited

/-- The epoch controller. `ord` counts the seals since its page was enabled; `given` holds the kinds and levels of the vote messages sent in this step. `pages` lists the pages with a slot or an S state of their own; an unlisted page is SEALED under E
while an epoch is open and, under S, PENDING while `snapActive`, else NONE. -/
structure Epoch where
  st : EpState := .idle
  step : Nat := 0
  sh : BitVec 32 := 0#32
  shSlice : BitVec 32 := 0#32
  published : Bool := false
  shLate : BitVec 32 := 0#32
  outcome : Nat := 0
  contributed : Bool := false
  vetoed : Bool := false
  decision : Decision := .none
  restoring : Bool := false
  watchdog : Bool := false
  snapActive : Bool := false
  pages : List (Nat × PageSt) := []
  minFree : Nat := 0
  ord : Nat := 0
  votes : List Vote := []
  given : List (Nat × Nat) := []
  deriving DecidableEq, Repr, Inhabited

/-- A live piece (R247): its header fields, its place in the chain and whether its data has moved (R248). -/
structure Piece where
  id : Nat
  tag : Nat
  len : Nat
  kind : Nat
  fallback : Bool
  byDrain : Bool
  step : Nat
  pos : Nat
  ready : Bool
  deriving DecidableEq, Repr, Inhabited

/-- A chain (R246): engine, MB mod 64, the MB of its pieces, its data pages in order from chain position 0, its pieces newest first. -/
structure Chain where
  eng : Nat
  mb64 : Nat
  mb : Nat
  pages : List Nat
  pieces : List Piece
  deriving DecidableEq, Repr, Inhabited

/-- The Jersey stack or the Tulle store (R243 to R253): chains and the next piece identity. -/
structure Store where
  chains : List Chain := []
  next : Nat := 1
  minFree : Nat := 0
  deriving DecidableEq, Repr, Inhabited

/-- The published clip factor (R276): STEP, n and c as binary32 words; `valid` while c of that step is published for the run of
it since its seal; τ in force, and the committed τ that the next seal puts in force. -/
structure Clip where
  valid : Bool := false
  step : Nat := 0
  norm : Nat := 0
  factor : Nat := 0x3F800000
  redoPending : Bool := false
  tauPending : Option Nat := none
  tau : Nat := 0x3F800000
  deriving DecidableEq, Repr, Inhabited

end Sys2Proof.Machine
end

