-- ==== Sys2Proof/Machine/NetTypes.lean ====
section
/-! DEFINITION. The state of the router and its ports (R356 to R400) and of the collective engine with the panel-tree groups (R405 to R435), as plain data. -/
namespace Sys2Proof.Machine

/-- A packet (R365): its header fields, whether its CRC field agrees with its contents (R366), and its payload. -/
structure Packet where
  dst : Nat
  src : Nat
  inter : Nat
  slice : Nat
  tc : Nat
  direct : Bool
  last : Bool
  type : Nat
  defl : Nat
  phase : Bool
  urgent : Bool
  hops : Nat
  seq : Nat
  idx : Nat
  cnt : Nat
  inc : Nat
  age : Nat
  addr : Nat
  arg : Nat
  attempt : Nat
  crcOk : Bool
  payload : List Nat
  deriving DecidableEq, Repr, Inhabited

/-- A packet in an input buffer or a transit buffer, with the machine time since when it has waited there. -/
structure Buffered where
  pkt : Packet
  since : Nat
  deriving DecidableEq, Repr, Inhabited

/-- PT_STATUS.STATE (R359). -/
inductive PState where
  | down | train | ident | up | misplaced | disabled
  deriving DecidableEq, Repr, Inhabited

def PState.code : PState → Nat
  | .down => 0
  | .train => 1
  | .ident => 2
  | .up => 3
  | .misplaced => 4
  | .disabled => 5

/-- One port (R359 to R387). `peerMask` is the mask of the peer's last control frame (R371) as a 256-bit number; `verNone` holds
FAB_VER_NONE back until UP is reached again; `frame` is the peer's last identity frame; `gz` tells of the last packet slots of
the output which carried Gauze, newest first (R386); `buf` is the input buffer (R380) and `transit` the transit buffer (R385). -/
structure Port where
  st : PState := .disabled
  swapped : Bool := false
  lanes : Nat := 0
  ver : Nat := 0
  holdIn : Bool := false
  holdOut : Bool := false
  peerMod : Nat := 0
  peerPort : Nat := 0
  peerInc : Nat := 0
  peerSerial : W64 := 0#64
  peerMask : Option Nat := none
  verNone : Bool := false
  frame : Option IdFrame := none
  gz : List Bool := []
  buf : List Buffered := []
  transit : Option Buffered := none
  deriving DecidableEq, Repr, Inhabited

/-- Who a message of this module answers to when it ends (R368): a DMA tag of a slot, an EVSIG of a slot, a task signal, an
operation of a collective context, or nobody. -/
inductive Owner where
  | dma (slot tag : Nat)
  | evsig (slot : Nat)
  | task (q idx : Nat)
  | coll (ctx idx : Nat)
  | none
  deriving DecidableEq, Repr, Inhabited

/-- A message of this module (R388 to R393). `started` says that a packet of it has left; `left` lists the packets of the present attempt
not yet injected; `hurried` says that it has waited 10 µs for injection (R395); `inter` and `age` belong to the present attempt. -/
structure Msg where
  owner : Owner
  dst : Nat
  seq : Nat := 0
  type : Nat
  tc : Nat
  slice : Nat
  direct : Bool
  addr : Nat
  arg : Nat
  data : List Nat
  inter : Nat := 0
  attempt : Nat := 0
  age : Nat := 0
  started : Bool := false
  hurried : Bool := false
  left : List Nat := []
  deriving DecidableEq, Repr, Inhabited

/-- A message on its way in, or whole and waiting for its row (R388, R389). `got` holds the packet indices with the payloads kept; `dup` says
that its sequence had been completed before its first packet came (R392), `put` holds the packets of a COLL message whose payload has been written (R389). -/
structure InMsg where
  src : Nat
  seq : Nat
  inc : Nat
  type : Nat
  addr : Nat
  arg : Nat
  cnt : Nat
  slice : Nat
  got : List (Nat × List Nat) := []
  status : Nat := 0
  dup : Bool := false
  put : List Nat := []
  deriving DecidableEq, Repr, Inhabited

/-- A duplicate entry (R392): source, its incarnation, the lowest sequence not yet completed, the map of those from it on, and the status with
which a completed message was answered where it was not OK. -/
structure DupEntry where
  src : Nat
  inc : Nat
  base : Nat
  map : Nat
  sts : List (Nat × Nat) := []
  deriving DecidableEq, Repr, Inhabited

/-- The router (R369 to R400). `cmdReset` marks a router reset under way, as opposed to an island not yet released; `quarWait` says that quarantine begins when the first port reaches UP; `dropSaid` that FAB_DROP_DISABLED has
been raised since the page was disabled; `sendSeq` holds the next sequence number per destination; `mgmtFrom` is the machine time from which
RT_MGMT.RATE allows the next MGMT packet. -/
structure Router where
  inc : Nat := 0
  inReset : Bool := true
  cmdReset : Bool := false
  quar : Bool := false
  quarWait : Bool := false
  dropSaid : Bool := false
  msgs : List Msg := []
  sendSeq : List (Nat × Nat) := []
  reasm : List InMsg := []
  whole : List InMsg := []
  mgmtFrom : Nat := 0
  dup : List DupEntry := []
  deriving DecidableEq, Repr, Inhabited

/-- An operation descriptor (R413). -/
structure CollDesc where
  op : Nat := 0
  direct : Bool := false
  tcsel : Nat := 0
  ragged : Bool := false
  tap : Bool := false
  irq : Bool := false
  stepBound : Bool := false
  waitEn : Bool := false
  tgt : Nat := 0
  sfmt : Nat := 0
  modes : Nat := 0
  cla : Nat := 0
  ledger : Nat := 0
  src : Nat := 0
  dst : Nat := 0
  srcSc : Nat := 0
  dstSc : Nat := 0
  count : Nat := 0
  opid : Nat := 0
  step : Nat := 0
  ebase : Nat := 0
  root : Nat := 0
  tag : Nat := 0
  aux : Nat := 0
  waitC : Nat := 0
  waitT : Nat := 0
  sig : Nat := 0
  recAddr : Nat := 0
  recNone : Bool := false
  deriving DecidableEq, Repr, Inhabited

/-- A node of a shard tree for one chunk of one block: level, first shard, block, chunk (R118, R416). -/
structure NodeKey where
  lvl : Nat
  a : Nat
  j : Nat
  ch : Nat
  deriving DecidableEq, Repr, Inhabited

/-- A part of an operation's input: hosted shard, block, elements, their bytes and their scale bytes. -/
structure Part where
  i : Nat
  j : Nat
  n : Nat
  bytes : List Nat
  codes : List Nat
  deriving DecidableEq, Repr, Inhabited

/-- Final data received for an output: the rank from whose blocks it is, NODE (elements or scale bytes), ADDR and the bytes (R415, R430). -/
structure Final where
  origin : Nat
  node : Nat
  addr : Nat
  data : List Nat
  deriving DecidableEq, Repr, Inhabited

/-- A ready message of a RECV (R422): context, rank and ring index of the RECV, its ordinal among the RECVs of its peer and tag, and the fields that it carries. -/
structure Ready where
  ctx : Nat
  rank : Nat
  idx : Nat
  ord : Nat
  digest : Nat
  tag : Nat
  count : Nat
  tgt : Nat
  dst : Nat
  dstSc : Nat
  deriving DecidableEq, Repr, Inhabited

/-- An operation of a context between its start and its completion (R411 to R427). `parts` is the input as read at the start and `newMap`
the map of AUX; `grants` are those received and `granted` those given (the scratch address each), `sent` the nodes sent,
`nodes` the nodes received; `finals` are final data received; `formed` says that this module has converted its own results, `sum` is its own exact sum
and `total` the group's; `ord` is the ordinal of a SEND or RECV among those of its peer and tag (R422); `ready` is the RECV that a SEND has met, `got` the element and scale bytes that a RECV has received; `written` says that all output is written. -/
structure CollOp where
  ctx : Nat
  idx : Nat
  desc : CollDesc
  digest : Nat
  start : Nat
  parts : List Part := []
  newMap : List Nat := []
  grants : List (NodeKey × Nat) := []
  granted : List (NodeKey × Nat) := []
  sent : List NodeKey := []
  nodes : List (NodeKey × List Nat) := []
  finals : List Final := []
  formed : Bool := false
  sum : LongAcc := {}
  total : Option LongAcc := none
  ord : Nat := 0
  ready : Option Ready := none
  got : Nat × Nat := (0, 0)
  written : Bool := false
  deriving DecidableEq, Repr, Inhabited

/-- A collective context as the engine holds it (R405), with the job seed it latched when it opened (R263), the completed operations that DONE has not passed, and
the SENDs and RECVs that it has started for each peer rank and tag (R422). -/
structure Context where
  state : QState := .disabled
  ring : Nat := 0
  rlog : Nat := 4
  cring : Nat := 0
  tail : Nat := 0
  head : Nat := 0
  doneIdx : Nat := 0
  tailsrc : Bool := false
  irqHalt : Bool := false
  tailEvc : Nat := 0
  axes : Nat := 0
  shards : Nat := 0
  smap : List Nat := []
  scr : Nat := 0
  scrLen : Nat := 0
  msix : Nat := 0
  errCode : Nat := 0
  errIdx : Nat := 0
  ops : Nat := 0
  seed : W64 := 0#64
  finished : List Nat := []
  sends : List (Nat × Nat) := []
  recvs : List (Nat × Nat) := []
  deriving DecidableEq, Repr, Inhabited

/-- The collective engine (R405 to R429). `held` are COLL messages for operations that have not been read (R412), `readies` those of RECVs that no
SEND has met yet (R422). -/
structure Collective where
  ctxs : List (Nat × Context) := []
  ops : List CollOp := []
  held : List InMsg := []
  own : List (Owner × InMsg) := []
  readies : List Ready := []
  cla : List LongAcc := List.replicate 16 {}
  lastCtx : Nat := 0
  deriving DecidableEq, Repr, Inhabited

/-- Where a side output is pushed: nowhere, a piece of the Jersey stack or of the Tulle store, or a fallback (R249, R253, R254). -/
inductive PushPlan where
  | none
  | push (tulle : Bool) (len kind : Nat)
  | fall (len : Nat)
  deriving DecidableEq, Repr, Inhabited

/-- One engine's part of a panel-tree group (R433): its slot and logical engine, the drained tile, the pair's second tile, the 64 bytes of its
drain descriptor as read when MDRAIN issued (R220), its norm tap, the descriptor's offset, the index of the MDRAIN, its place among the instructions that set NSTAT,
and the numeric context at its issue. `push` is the push of its side output as planned when MDRAIN issued, with the codes of the pieces it allocated
(R248); none where nothing has been planned yet. -/
structure PtPart where
  slot : Nat
  eng : Nat
  tile : Tile
  pair : Option Tile
  desc : List Nat
  tap : Option Nat
  at' : Nat
  pc : Nat
  seq : Nat
  ctx : Ctx
  push : Option PushPlan := none
  pieces : List Nat := []
  deriving DecidableEq, Repr, Inhabited

/-- An open panel-tree group: task (queue, index), panel, tile number, ordinal of the group for that task, panel and tile. -/
structure PtGroup where
  task : Nat × Nat
  panel : Nat
  tile : Nat
  ord : Nat
  parts : List PtPart
  deriving DecidableEq, Repr, Inhabited

end Sys2Proof.Machine
end

