-- ==== Sys2Proof/Machine/SysTypes.lean ====
section
/-! DEFINITION. The state of the dependability functions (R442 to R469), the log unit and the snapshot DMA (R474 to R500), the stacks (R320 to R327), the Felt domain with machine time, power and start-up (R507 to R540) and the host interface (R573 to R585), as plain data. -/
namespace Sys2Proof.Machine

/-- The state of a physical slot in CAL_SLOT (R457). -/
inductive SlotSt where
  | fused | active | reserve | trial | test | fenced | lent
  deriving DecidableEq, Repr, Inhabited

def SlotSt.code : SlotSt → Nat
  | .fused => 0
  | .active => 1
  | .reserve => 2
  | .trial => 3
  | .test => 4
  | .fenced => 5
  | .lent => 6

/-- What the Felt domain and the Calico controller keep of one physical slot (R454 to R467). `transients` holds the times of
the counted conditions; `fenceLog` is the slot's record in the non-volatile fence log; `fencePend` is the cause of a fence that
waits for a kernel boundary; `trialPend` a TRIAL that waits for one; `testFrom` the state before TEST; `lentTo` the slot that a
lent reserve stands in for, `passed` that the rotation's test has passed and `rotEnd` that the rotation ends at the next boundary; `backing` the logical engine a slot in TRIAL backed. -/
structure SlotDep where
  st : SlotSt := .fused
  untested : Bool := false
  misses : Nat := 0
  transients : List Nat := []
  lastPass : Nat := 0
  due : Nat := 0
  fenceLog : Bool := false
  fencePend : Option Nat := none
  trialPend : Bool := false
  testFrom : Option SlotSt := none
  testWaits : Bool := false
  lentTo : Option Nat := none
  passed : Bool := false
  rotEnd : Bool := false
  backing : Option Nat := none
  deriving DecidableEq, Repr, Inhabited

/-- The key of a drain (R448). -/
structure Key where
  eng : Nat
  tile : Nat
  opid : Nat
  step : Nat
  ebase : Nat
  deriving DecidableEq, Repr, Inhabited

/-- An open classification (R450 to R456): KIND of DEP_CLS, stage, slot of the original event (index 52p + s) and its latest event's time. -/
structure Cls where
  key : Key
  kind : Nat
  stage : Nat
  slot : Nat
  last : Nat
  deriving DecidableEq, Repr, Inhabited

/-- A suspect event that waits for its task to complete (R450). -/
structure Suspect where
  q : Nat
  idx : Nat
  key : Key
  kind : Nat
  slot : Nat
  deriving DecidableEq, Repr, Inhabited

/-- The dependability state of the module. `sramCe` lists stores with corrected errors of the running frame: kind, store, count, last offset. -/
structure Dep where
  slots : List SlotDep := List.replicate 312 {}
  cls : List (Option Cls) := List.replicate 16 none
  suspects : List Suspect := []
  dataKeys : List Key := []
  sramCe : List (Nat × Nat × Nat × Nat) := []
  deriving DecidableEq, Repr, Inhabited

/-- An item of the log unit's buffer (R483). -/
inductive LogItem where
  | ovr (entry blocks opid : Nat) (task : Option (Nat × Nat))
  | seed (entry reason opid : Nat)
  | lmap (eng old new : Nat)
  | context (ctx : Nat) (axes shards members crc : Nat)
  deriving DecidableEq, Repr, Inhabited

/-- The CLIP record's contents (R482). -/
structure ClipRec where
  c : Nat
  n : Nat
  mode : Nat
  redo : Bool
  nf : Bool
  deriving DecidableEq, Repr, Inhabited

/-- The log unit (R474 to R500). `mirrored` holds the records written to the mirror that the host has not acknowledged (index, bytes),
`mbuf` those held back. -/
structure LogUnit where
  next : Nat := 0
  midx : Nat := 0
  items : List LogItem := []
  clip : Option ClipRec := none
  attempt : Nat := 0
  rerun : Bool := false
  snap : Bool := false
  prevSkipped : Bool := false
  skipData : Bool := false
  restored : Bool := false
  forced : Bool := false
  stall : Bool := false
  diverged : Bool := false
  orderLost : Bool := false
  mirrored : List (Nat × List Nat) := []
  mbuf : List (List Nat) := []
  delayed : List Nat := []
  deriving DecidableEq, Repr, Inhabited

/-- The snapshot DMA (R488 to R492). `crcs` holds the CRC of each drained page by index; `manifest` the bytes of its manifest (R489) without
COMPLETE. -/
structure SnapDma where
  active : Bool := false
  started : Bool := false
  done : Bool := false
  aborted : Bool := false
  step : Nat := 0
  sealTime : Nat := 0
  pages : Nat := 0
  drained : List Nat := []
  crcs : List (Nat × Nat) := []
  manifest : List Nat := []
  deriving DecidableEq, Repr, Inhabited

/-- STK_STATUS.STATE (R353). -/
inductive StkSt where
  | ok | degraded | failed | fenced
  deriving DecidableEq, Repr, Inhabited

def StkSt.code : StkSt → Nat
  | .ok => 0
  | .degraded => 1
  | .failed => 2
  | .fenced => 3

/-- One stack (R320 to R327, R353). `fencePend` is kept in the Felt domain; `frames` holds the corrected errors of the last 1,000
service frames that had any, as (frame number, count); `ueTimes` the times of the uncorrectable reads of the last second. -/
structure Stack where
  st : StkSt := .ok
  fencePend : Bool := false
  slot : Nat := 0
  frames : List (Nat × Nat) := []
  frameCe : Nat := 0
  lastCe : Nat := 0
  ueTimes : List Nat := []
  errAddr : Nat := 0
  deriving DecidableEq, Repr, Inhabited

/-- FELT_BOOT.STAGE. -/
inductive Stage where
  | rom | waitRel | selfboot | booted | ready | halted
  deriving DecidableEq, Repr, Inhabited

def Stage.code : Stage → Nat
  | .rom => 0
  | .waitRel => 1
  | .selfboot => 2
  | .booted => 3
  | .ready => 4
  | .halted => 5

/-- The power state (R507). -/
inductive PowerSt where
  | off | standby | powering | on | fwdOnly | tripped
  deriving DecidableEq, Repr, Inhabited

def PowerSt.code : PowerSt → Nat
  | .off => 0
  | .standby => 1
  | .powering => 2
  | .on => 3
  | .fwdOnly => 4
  | .tripped => 5

/-- The sideband pins (R509). -/
structure Pins where
  p48v : Bool := true
  pwrEn : Bool := false
  modResetN : Bool := false
  perstN : Bool := false
  pwrGood : Bool := false
  aliveOut : Bool := false
  thermTripN : Bool := true
  faultN : Bool := true
  slotW : Nat := 0
  deriving DecidableEq, Repr, Inhabited

/-- A request that waits for the Felt firmware: a MGMT message with its source and bytes (R373), or a request over MCTP (R585): read register, write
register, telemetry, records of the Felt log, a firmware image and whether its write ends with it, a challenge or a token, and the census entry. -/
inductive FeltReq where
  | mgmt (src : Nat) (data : List Nat)
  | readReg (pg off : Nat)
  | writeReg (pg off v : Nat)
  | telemetry
  | readLog (count : Nat)
  | firmware (copyB : Bool) (image : List Nat) (done : Bool)
  | unlock (token : Option UnlockToken)
  | census
  deriving DecidableEq, Repr, Inhabited

/-- The Felt management controller: start-up (R510 to R517), board leader and census (R538, R539), tables (R540), event log (R581),
firmware. `flashA` and `flashB` are the images written into the two copies, `auth` what the ROM finds in each (0 accepted, 1 signature, 2 version; R513), and
`image` the one that the firmware runs from. `requests` holds the requests that wait for a frame, oldest first (R524), `updates` the entries that the
module has to pass upward, `parts` the parts of census reports that have come, by board and number (R539), `again` the MGMT messages it sent that may
have to be sent again (R398), `bootWait` a release that waits for a router reset to end (R521). `smb` is the SMBus address sampled at power-up (R584). `geom` and `machine` are the values latched at the last release (R512); `linkHalt` distinguishes the two halts of R514. -/
structure Felt where
  running : Bool := false
  stage : Stage := .rom
  imageB : Bool := false
  debugOpen : Bool := false
  challenge : Nat := 0
  leader : Option Nat := none
  heard : List Nat := []
  announced : Option Nat := none
  linkHalt : Bool := false
  noCoord : Bool := false
  geom : Nat := 0
  machine : Nat := 0
  releaseAt : Nat := 0
  bootMs : Nat := 0
  entries : List CensusEntry := []
  reports : List Nat := []
  choiceAt : Nat := 0
  censusSent : Bool := false
  absent : List Nat := []
  table : List Nat := []
  tAct : Option Nat := none
  log : List (Event × Bool) := []
  frame : Nat := 0
  lateAt : Option Nat := none
  fwWriting : Option Nat := none
  flashA : List Nat := []
  flashB : List Nat := []
  auth : Nat × Nat := (0, 0)
  image : List Nat := []
  smb : Nat := 0x30
  requests : List FeltReq := []
  updates : List CensusEntry := []
  parts : List (Nat × Nat) := []
  again : List (Nat × List Nat) := []
  bootWait : Option BootFacts := none
  deriving DecidableEq, Repr, Inhabited

/-- The known-answer test of the random generator (R266): the slots whose test waits for a kernel to end, each with the answers that its engine and
its drain unit will give, whether an answer was wrong, KAT_DONE and KAT_PASS. -/
structure Kat where
  wait : List (Nat × W64 × W64) := []
  bad : Bool := false
  done : Bool := false
  pass : Bool := false
  deriving DecidableEq, Repr, Inhabited

/-- Machine time beside its count (R526 to R532). `frac` is the part of the count below 1 ns and `slew` what a backward correction has yet to take
away, both in 10^-9 ns; `seen` is the offset measured since the last frame, in ps; `goodFrames` counts consecutive frames with the offset within 5 ns. -/
structure TimeSt where
  started : Bool := false
  locked : Bool := false
  off : Int := 0
  rate : Int := 0
  frac : Int := 0
  slew : Nat := 0
  seen : Option Int := none
  lastTick : Option Nat := none
  goodFrames : Nat := 0
  hiLatch : Nat := 0
  rootFrom : Nat := 0
  deriving DecidableEq, Repr, Inhabited

/-- Power and thermal state (R507, R534 to R536). `clk` is the fast clock in sixteenths of 1.50 GHz, `clears` the checks of 10 µs since the last step with both conditions clear; `level` is H of R536 in µW,
`added` the limiter's load in µW and `loadE` its energy of less than a joule in 10^-15 J;
`capW`, `floorW` and `decayW` are the values in force of PWR_CAP, PWR_FLOOR and PWR_DECAY (R544). -/
structure Power where
  st : PowerSt := .standby
  watts : Nat := 0
  vin : Nat := 0
  tj : Nat := 0
  sensor : Nat := 0
  throttle : Bool := false
  cap : Bool := false
  load : Bool := false
  loaded : List Nat := []
  clk : Nat := 16
  clears : Nat := 0
  level : Nat := 0
  added : Nat := 0
  loadE : Nat := 0
  loadNs : Nat := 0
  capW : Nat := 0x1450
  floorW : Nat := 0
  decayW : Nat := 0x64
  deriving DecidableEq, Repr, Inhabited

/-- The host interface (R573 to R583). `bar2` is the size of BAR2 in GiB (R575), `evNow` holds the records of the running nanosecond, by page (R18), `evWait` those that wait for the ring, `evLost` the number discarded since the
last HOST_EVR_LOST record, `msixPend` the pending bits; `irqDue` says that HI_EVR_VEC has yet to follow a group of records, which it may from `irqAt` on (R580). -/
structure HostIf where
  rate : Nat := 0
  width : Nat := 0
  flit : Bool := false
  bme : Bool := false
  d3 : Bool := false
  bar2 : Nat := 128
  bar4 : List (Nat × Nat) := []
  prod : Nat := 0
  cons : Nat := 0
  evNow : List Event := []
  evWait : List Event := []
  evLost : Nat := 0
  msixPend : List Nat := []
  irqDue : Bool := false
  irqAt : Nat := 0
  deriving DecidableEq, Repr, Inhabited

/-- The completion of a register or memory read (R40, R548, R567, R576). -/
inductive Cpl where
  | data (bytes : List Nat)
  | poisoned
  | ur
  | ca
  deriving DecidableEq, Repr, Inhabited

/-- What the module sends out: posted writes to host memory, the flushing read, MSI-X messages, completions, link traffic, SMBus answers. -/
inductive Out where
  | hostWrite (addr : Nat) (data : List Nat)
  | flush
  | msix (vec : Nat)
  | cpl (c : Cpl)
  | packet (port : Nat) (p : Packet)
  | ident (port : Nat) (bytes : List Nat)
  | heartbeat (port : Nat)
  | mask (port : Nat) (m : Nat)
  | timeFrame (port : Nat) (t1 : Nat)
  | timeAnswer (port : Nat) (t2 t3 : Nat) (locked : Bool)
  | hold (port : Nat) (on : Bool)
  | mctp (data : List Nat)
  | tick
  deriving DecidableEq, Repr, Inhabited

end Sys2Proof.Machine
end

