-- ==== Sys2Proof/Machine/State.lean ====
section
/-! DEFINITION. The state of the module, the reasons a step can stop, and the state right after a cold reset. Everything is plain data. -/
namespace Sys2Proof.Machine

/-- The header state of a register page that is not computed from the block (R552 to R566): PG_STATUS.ENABLED, BUSY (a disable in
progress), CFG_OK, PG_ERR, PG_ERR_EN, PG_SNAP_SEQ, and whether REG_PAGE_OFF has been raised since the island powered off (R568). -/
structure Page where
  enabled : Bool := false
  busy : Bool := false
  cfgOk : Bool := false
  err : Nat := 0
  errEn : Nat := 0
  snapSeq : Nat := 0
  offSaid : Bool := false
  deriving DecidableEq, Repr, Inhabited

/-- An MG_LMAP entry (R22). -/
structure LmapEntry where
  valid : Bool := false
  subst : Bool := false
  slot : Nat := 0
  deriving DecidableEq, Repr, Inhabited

/-- The marking of a physical slot in the factory fuse map: fused off, active at shipment, or good reserve. -/
inductive Fuse where
  | off | active | reserve
  deriving DecidableEq, Repr, Inhabited

/-- The module. Slots are indexed by 52p + s. `regs` holds, by page × 4096 + offset, the registers that differ from their reset
value (RW and STG fields, counters, HOLD copies); `mem` the bytes of the local address space that are not 0 (engine and panel
stores at their addresses of R38); `poison` the poisoned granules and words in rising order, `once` those whose next delivery alone is poisoned (R445). `events` and `out` are newest first.
`antiRollback` are the fused security versions of the three images (R513, R519); `crst` is set
during a compute reset (R399). `free` is the model's own: it counts the free values used (log entry 5). -/
structure Mod where
  time : Nat := 0
  fuse : List Fuse := []
  modid : Nat := 0
  fwdOnly : Bool := false
  crst : Bool := false
  antiRollback : List Nat := [0, 0, 0]
  nStacks : Nat := 0
  lmap : List LmapEntry := List.replicate 288 {}
  engs : List Engine := List.replicate 312 {}
  ptGroups : List PtGroup := []
  dsp : Dispatch := {}
  ep : Epoch := {}
  js : Store := {}
  ts : Store := {}
  clip : Clip := {}
  kat : Kat := {}
  lg : LogUnit := {}
  sd : SnapDma := {}
  ce : Collective := {}
  rt : Router := {}
  ports : List Port := List.replicate 19 {}
  dep : Dep := {}
  stks : List Stack := List.replicate 32 {}
  felt : Felt := {}
  mt : TimeSt := {}
  pwr : Power := {}
  pins : Pins := {}
  host : HostIf := {}
  pages : List (Nat × Page) := []
  regs : List (Nat × Nat) := []
  mem : List (Nat × Byte) := []
  poison : List Nat := []
  once : List Nat := []
  events : List Event := []
  out : List Out := []
  free : Nat := 0
  deriving DecidableEq, Repr, Inhabited

/-- The state of the machine: the module and the commands that wait, first in, first out. -/
structure State where
  core : Mod
  pending : List Instr
  deriving DecidableEq, Repr, Inhabited

/-- The faults of a step. Nothing raises one: every command of the table has an effect that the spec describes, so no command stops the
machine (a refused engine instruction is a kernel fault, which is a next state). Kept for the host's interface; safe. -/
inductive Fault where
  /-- Raised by nothing. Safe: a stop could only make a true claim unprovable. -/
  | unused
  deriving DecidableEq, Repr, Inhabited

/-- The refusals of a step. -/
inductive Refusal where
  /-- Raised by Machine.exec alone, for a command that has no meaning yet; its table mnemonic is given. Safe: the run stops. -/
  | notModelled (mnemonic : String)
  deriving DecidableEq, Repr, Inhabited

/-- The fuse map of the modelled part: in each panel slots 0 to 47 are active and 48 to 51 good reserves. DESIGN CHOICE, log entry 3. -/
def fuseMap : List Fuse :=
  (List.replicate 6 (List.replicate 48 Fuse.active ++ List.replicate 4 Fuse.reserve)).flatten

/-- The module right after a cold reset: P48V is present, the Felt firmware has not been started yet (R507, R510, R519). DESIGN CHOICE, log entry 44. -/
def Mod.reset : Mod := { fuse := fuseMap }

/-- The machine right after reset, with no command waiting. -/
def State.reset : State := { core := Mod.reset, pending := [] }

end Sys2Proof.Machine
end

