-- ==== Sys2Proof/Machine/RegTable.lean ====
section
/-! DEFINITION. The event codes and their severities (R17, R95, R164, R198, R242, R316, R355, R404, R441, R473, R506, R546, R572, R599), and the register pages (R551) with their writable registers, counters and reset values. -/
namespace Sys2Proof.Machine

def Ev.cfgIgnored : Nat := 0x0101
def Ev.cfgMismatch : Nat := 0x0102
def Ev.regAccessBad : Nat := 0x0103
def Ev.regTimeout : Nat := 0x0104
def Ev.regPageOff : Nat := 0x0105
def Ev.engDmaFault : Nat := 0x0201
def Ev.accNotOpen : Nat := 0x0202
def Ev.accModeMismatch : Nat := 0x0203
def Ev.accChunkOverrun : Nat := 0x0204
def Ev.accTreeDepth : Nat := 0x0205
def Ev.drainFnBad : Nat := 0x0206
def Ev.arrayCheckMismatch : Nat := 0x0207
def Ev.illegalInstr : Nat := 0x0220
def Ev.imActiveWrite : Nat := 0x0221
def Ev.imPcRange : Nat := 0x0222
def Ev.estoreRange : Nat := 0x0223
def Ev.estoreAlign : Nat := 0x0224
def Ev.loopDepth : Nat := 0x0225
def Ev.loopNestBad : Nat := 0x0226
def Ev.loopEscape : Nat := 0x0227
def Ev.loopState : Nat := 0x0228
def Ev.descBad : Nat := 0x0229
def Ev.shWaitExpired : Nat := 0x022A
def Ev.shLate : Nat := 0x022B
def Ev.fmtUnsupported : Nat := 0x0301
def Ev.numNonfinite : Nat := 0x0302
def Ev.numCountSat : Nat := 0x0303
def Ev.zaIntOverflow : Nat := 0x0304
def Ev.srRange : Nat := 0x0305
def Ev.scaleOverride : Nat := 0x0310
def Ev.ledgerSeeded : Nat := 0x0311
def Ev.ledgerStepSkew : Nat := 0x0312
def Ev.ledgerRange : Nat := 0x0313
def Ev.scaleMarginBad : Nat := 0x0314
def Ev.scaleModeBad : Nat := 0x0315
def Ev.ledgerFormatMismatch : Nat := 0x0316
def Ev.addrUnbacked : Nat := 0x0401
def Ev.addrRefused : Nat := 0x0402
def Ev.memCe : Nat := 0x0403
def Ev.memUe : Nat := 0x0404
def Ev.stackCeStorm : Nat := 0x0405
def Ev.stackFailed : Nat := 0x0406
def Ev.stackFenced : Nat := 0x0407
def Ev.epochPoolExhausted : Nat := 0x0408
def Ev.epochNotOpen : Nat := 0x0409
def Ev.epochRollback : Nat := 0x040A
def Ev.epochWatchdog : Nat := 0x040B
def Ev.epochPrepared : Nat := 0x040C
def Ev.epochVoteSkew : Nat := 0x040D
def Ev.epochShadowUe : Nat := 0x040E
def Ev.snapPoolAbort : Nat := 0x040F
def Ev.epochLateHealth : Nat := 0x0410
def Ev.epochCmdBad : Nat := 0x0411
def Ev.jerseyFull : Nat := 0x0440
def Ev.tulleFull : Nat := 0x0441
def Ev.jerseyOrder : Nat := 0x0442
def Ev.jerseyFallback : Nat := 0x0443
def Ev.jtResidue : Nat := 0x0444
def Ev.rngNotReady : Nat := 0x0445
def Ev.rngKatFail : Nat := 0x0446
def Ev.clipRedo : Nat := 0x0447
def Ev.clipWaitExpired : Nat := 0x0448
def Ev.engKernelFault : Nat := 0x0501
def Ev.taskDescBad : Nat := 0x0502
def Ev.taskEngineInvalid : Nat := 0x0503
def Ev.kernelLoadFault : Nat := 0x0504
def Ev.queueOverrun : Nat := 0x0505
def Ev.qtFault : Nat := 0x0506
def Ev.evwaitExpired : Nat := 0x0507
def Ev.evRemoteRefused : Nat := 0x0508
def Ev.qtPinFull : Nat := 0x0509
def Ev.qcmdBad : Nat := 0x050A
def Ev.taskSuspect : Nat := 0x050B
def Ev.optRedoListFull : Nat := 0x050C
def Ev.fabPortDown : Nat := 0x0601
def Ev.fabPortUp : Nat := 0x0602
def Ev.misplaced : Nat := 0x0603
def Ev.fabPortSwapped : Nat := 0x0604
def Ev.fabVerNone : Nat := 0x0605
def Ev.fabSliceRefused : Nat := 0x0606
def Ev.fabHdrParity : Nat := 0x0607
def Ev.fabCrcError : Nat := 0x0608
def Ev.fabLifeDrop : Nat := 0x0609
def Ev.fabRtxExhausted : Nat := 0x060A
def Ev.fabPeerReset : Nat := 0x060B
def Ev.fabGauzeDrop : Nat := 0x060C
def Ev.fabMaskSkew : Nat := 0x060D
def Ev.fabDropDisabled : Nat := 0x060E
def Ev.fabQuarantine : Nat := 0x060F
def Ev.collCtxFault : Nat := 0x0701
def Ev.collDescBad : Nat := 0x0702
def Ev.collMismatch : Nat := 0x0703
def Ev.collMsgError : Nat := 0x0704
def Ev.collMemError : Nat := 0x0705
def Ev.collPeerAbort : Nat := 0x0706
def Ev.collTimeout : Nat := 0x0707
def Ev.collPermuteSpan : Nat := 0x0708
def Ev.collOverrun : Nat := 0x0709
def Ev.collCmdBad : Nat := 0x070A
def Ev.ptGroupBad : Nat := 0x070B
def Ev.depSuspect : Nat := 0x0801
def Ev.depTransient : Nat := 0x0802
def Ev.depPermanent : Nat := 0x0803
def Ev.depData : Nat := 0x0804
def Ev.depUnverified : Nat := 0x0805
def Ev.depClassLost : Nat := 0x0806
def Ev.depClassFull : Nat := 0x0807
def Ev.engFenced : Nat := 0x0808
def Ev.engSubst : Nat := 0x0809
def Ev.engLost : Nat := 0x080A
def Ev.fwdOnlyEntry : Nat := 0x080B
def Ev.sramCe : Nat := 0x080C
def Ev.sramUe : Nat := 0x080D
def Ev.pathParity : Nat := 0x080E
def Ev.calFail : Nat := 0x080F
def Ev.calMiss : Nat := 0x0810
def Ev.calUntested : Nat := 0x0811
def Ev.ctrlParity : Nat := 0x0812
def Ev.stepSkew : Nat := 0x0901
def Ev.restoreForced : Nat := 0x0902
def Ev.restoreOk : Nat := 0x0903
def Ev.snapDone : Nat := 0x0904
def Ev.snapHostError : Nat := 0x0905
def Ev.snapSkipped : Nat := 0x0906
def Ev.logMirrorStall : Nat := 0x0907
def Ev.replayDiverge : Nat := 0x0908
def Ev.logOrderLost : Nat := 0x0909
def Ev.bootDone : Nat := 0x0A01
def Ev.bootAuthFail : Nat := 0x0A02
def Ev.bootImageFallback : Nat := 0x0A03
def Ev.bootNoCoord : Nat := 0x0A04
def Ev.memTrainFail : Nat := 0x0A05
def Ev.resetEntry : Nat := 0x0A06
def Ev.leader : Nat := 0x0A07
def Ev.censusDone : Nat := 0x0A08
def Ev.censusLate : Nat := 0x0A09
def Ev.tablesActive : Nat := 0x0A0A
def Ev.timeLock : Nat := 0x0A0B
def Ev.timeUnlock : Nat := 0x0A0C
def Ev.timeStep : Nat := 0x0A0D
def Ev.feltFrameLate : Nat := 0x0A0E
def Ev.thermThrottle : Nat := 0x0A0F
def Ev.thermTrip : Nat := 0x0A10
def Ev.pwrCapActive : Nat := 0x0A11
def Ev.pwrInputFault : Nat := 0x0A12
def Ev.debugUnlock : Nat := 0x0A13
def Ev.hostLinkUp : Nat := 0x0B01
def Ev.hostLinkDown : Nat := 0x0B02
def Ev.hostLinkDegraded : Nat := 0x0B03
def Ev.hostPoisonSent : Nat := 0x0B04
def Ev.hostAerUncorr : Nat := 0x0B05
def Ev.hostEvrLost : Nat := 0x0B06
def Ev.hostOutboundHeld : Nat := 0x0B07

/-- The codes of severity INFO (R16: noted, no function affected). -/
def evCodesInfo : List Nat :=
  [0x0105, 0x022A, 0x0303, 0x0310, 0x0403, 0x0407, 0x0410, 0x0443, 0x0447, 0x050B, 0x050C, 0x0602, 0x0604, 0x0607, 
   0x0608, 0x0609, 0x060C, 0x060F, 0x0806, 0x0809, 0x080C, 0x0903, 0x0904, 0x0A01, 0x0A06, 0x0A07, 0x0A08, 0x0A0A, 
   0x0A0B, 0x0A11, 0x0B01]

/-- The codes of severity WARN (R16: handled by the module). -/
def evCodesWarn : List Nat :=
  [0x0101, 0x0207, 0x0221, 0x022B, 0x0302, 0x0304, 0x0311, 0x0314, 0x0405, 0x040A, 0x040F, 0x0411, 0x0444, 0x0509, 
   0x050A, 0x0601, 0x0606, 0x060B, 0x060D, 0x060E, 0x070A, 0x0801, 0x0802, 0x0807, 0x0808, 0x0810, 0x0811, 0x0902, 
   0x0906, 0x0907, 0x0909, 0x0A03, 0x0A05, 0x0A09, 0x0A0C, 0x0A0D, 0x0A0E, 0x0A0F, 0x0A13, 0x0B02, 0x0B03, 0x0B04, 
   0x0B06, 0x0B07]

/-- The codes of severity FATAL (R16: the module has left normal operation). -/
def evCodesFatal : List Nat :=
  [0x0406, 0x080B, 0x0A10, 0x0A12]

/-- SEV of an event code (R16): 0 INFO, 1 WARN, 2 ERROR, 3 FATAL. -/
def sevOf (code : Nat) : Nat :=
  if evCodesInfo.contains code then 0
  else if evCodesWarn.contains code then 1
  else if evCodesFatal.contains code then 3
  else 2

/-- The block types of R553. -/
inductive Blk where
  | mg | felt | mt | stack | panel | engine | router | port | ce | dsp | ep | lg | sd | host | cal | rng | pwr
  deriving DecidableEq, Repr, Inhabited

/-- PG_ID.TYPE (R553). -/
def Blk.type : Blk → Nat
  | .mg => 1
  | .felt => 2
  | .mt => 3
  | .stack => 4
  | .panel => 5
  | .engine => 6
  | .router => 7
  | .port => 8
  | .ce => 9
  | .dsp => 10
  | .ep => 11
  | .lg => 12
  | .sd => 13
  | .host => 14
  | .cal => 15
  | .rng => 16
  | .pwr => 17

/-- The block and instance of a page that R551 lists. -/
def pageBlk (pg : Nat) : Option (Blk × Nat) :=
  if pg = 0x0000 then some (.mg, 0)
  else if pg = 0x0010 then some (.felt, 0)
  else if pg = 0x0011 then some (.mt, 0)
  else if 0x0040 ≤ pg && pg < 0x0060 then some (.stack, pg - 0x0040)
  else if 0x0080 ≤ pg && pg < 0x0086 then some (.panel, pg - 0x0080)
  else if 0x0100 ≤ pg && pg < 0x0280 then (if (pg - 0x0100) % 64 < 52 then some (.engine, pg - 0x0100) else none)
  else if pg = 0x0300 then some (.router, 0)
  else if 0x0310 ≤ pg && pg < 0x0323 then some (.port, pg - 0x0310)
  else if pg = 0x0340 then some (.ce, 0)
  else if pg = 0x0360 then some (.dsp, 0)
  else if pg = 0x0370 then some (.ep, 0)
  else if pg = 0x0378 then some (.lg, 0)
  else if pg = 0x0379 then some (.sd, 0)
  else if pg = 0x0380 then some (.host, 0)
  else if pg = 0x0390 then some (.cal, 0)
  else if pg = 0x03A0 then some (.rng, 0)
  else if pg = 0x03B0 then some (.pwr, 0)
  else none

/-- How software may write a register's writable bits: a configuration field (R559), a live field, or a staged field. -/
inductive RegAcc where
  | cfg | live | stg
  deriving DecidableEq, Repr, Inhabited

/-- A register with writable bits: offset, access, mask of the writable bits, reset value. -/
structure RegRow where
  off : Nat
  acc : RegAcc
  mask : Nat
  reset : Nat
  deriving DecidableEq, Repr, Inhabited

/-- Felt control page (R542). -/
def feltRegs : List RegRow :=
  [⟨0x104, .cfg, 0x8000FFF8, 0x0⟩,
   ⟨0x108, .cfg, 0xFFFFFFFF, 0x0⟩,
   ⟨0x10C, .cfg, 0x1FFFFF, 0x101020⟩,
   ⟨0x110, .cfg, 0x1, 0x0⟩,
   ⟨0x130, .live, 0xFFFF0000, 0x0⟩,
   ⟨0x134, .live, 0xFFF, 0x0⟩]

/-- Machine-time page (R542, R543). -/
def mtRegs : List RegRow :=
  [⟨0x114, .cfg, 0xFFFFFFFF, 0x0⟩,
   ⟨0x118, .cfg, 0xFFFF, 0x0⟩,
   ⟨0x11C, .cfg, 0x3F, 0x0⟩]

/-- Stack pages (R353). -/
def stackRegs : List RegRow :=
  [⟨0x104, .cfg, 0xFFFFFF01, 0x4001801⟩]

/-- Engine pages (R199). -/
def engineRegs : List RegRow :=
  [⟨0x104, .cfg, 0x1, 0x1⟩]

/-- Router page (R400); the boxes and masks follow their own rules. -/
def routerRegs : List RegRow :=
  [⟨0x100, .cfg, 0xFF, 0x0⟩,
   ⟨0x104, .cfg, 0x1F1F3F, 0x101020⟩,
   ⟨0x108, .cfg, 0xFFFFFFFF, 0x0⟩,
   ⟨0x10C, .cfg, 0x1, 0x1⟩,
   ⟨0x110, .cfg, 0x13F1F, 0x0⟩,
   ⟨0x114, .cfg, 0x11F0F, 0x0⟩,
   ⟨0x118, .cfg, 0x11F0F, 0x0⟩,
   ⟨0x11C, .cfg, 0xF07, 0x0⟩,
   ⟨0x120, .cfg, 0x13F1F, 0x0⟩,
   ⟨0x124, .cfg, 0x11F0F, 0x0⟩,
   ⟨0x128, .cfg, 0x11F0F, 0x0⟩,
   ⟨0x12C, .cfg, 0xF07, 0x0⟩,
   ⟨0x130, .cfg, 0x13F1F, 0x0⟩,
   ⟨0x134, .cfg, 0x11F0F, 0x0⟩,
   ⟨0x138, .cfg, 0x11F0F, 0x0⟩,
   ⟨0x13C, .cfg, 0xF07, 0x0⟩,
   ⟨0x140, .cfg, 0x13F1F, 0x0⟩,
   ⟨0x144, .cfg, 0x11F0F, 0x0⟩,
   ⟨0x148, .cfg, 0x11F0F, 0x0⟩,
   ⟨0x14C, .cfg, 0xF07, 0x0⟩,
   ⟨0x150, .cfg, 0xFFFFFFFF, 0x0⟩,
   ⟨0x154, .cfg, 0xFFFFFFFF, 0x0⟩,
   ⟨0x158, .cfg, 0xFFFFF, 0x800C8⟩,
   ⟨0x15C, .cfg, 0xFFFF, 0x3E8⟩,
   ⟨0x160, .cfg, 0xFFFF, 0x1388⟩,
   ⟨0x164, .cfg, 0xFF07, 0x1402⟩,
   ⟨0x168, .cfg, 0xFFFF, 0x3E8⟩,
   ⟨0x170, .live, 0x1, 0x0⟩]

/-- Port pages (R403). -/
def portRegs : List RegRow :=
  [⟨0x110, .cfg, 0xFFFF0001, 0x0⟩]

/-- Collective engine page (R438). -/
def ceRegs : List RegRow :=
  [⟨0x100, .cfg, 0xFFFF0000, 0x0⟩,
   ⟨0x104, .cfg, 0xFFF, 0x0⟩,
   ⟨0x108, .cfg, 0xFFFF, 0x0⟩]

/-- Dispatch page (R317). -/
def dspRegs : List RegRow :=
  [⟨0x100, .cfg, 0xFFFF0000, 0x0⟩,
   ⟨0x104, .cfg, 0xFFF, 0x0⟩,
   ⟨0x108, .cfg, 0xFFFFFFFF, 0xFFFF⟩,
   ⟨0x10C, .cfg, 0xFFFFFF, 0x0⟩,
   ⟨0x110, .cfg, 0x3FF, 0x20⟩,
   ⟨0x130, .live, 0xFFFF, 0x0⟩,
   ⟨0x13C, .live, 0xFFFFFFFF, 0x0⟩,
   ⟨0x140, .live, 0xFFFFFFFF, 0x0⟩]

/-- Epoch controller page (R351, R258, R277). -/
def epRegs : List RegRow :=
  [⟨0x100, .cfg, 0xFFFF0007, 0x0⟩,
   ⟨0x104, .cfg, 0xFFFFFF, 0x989680⟩,
   ⟨0x108, .cfg, 0xFFFFFF, 0x0⟩,
   ⟨0x10C, .cfg, 0xFFFF, 0x0⟩,
   ⟨0x110, .cfg, 0xFFFFFFFF, 0x1⟩,
   ⟨0x114, .cfg, 0xFFFF0000, 0x0⟩,
   ⟨0x118, .cfg, 0xFFF, 0x0⟩,
   ⟨0x11C, .cfg, 0x3FFFFFF, 0x0⟩,
   ⟨0x120, .cfg, 0xFFFF0000, 0x0⟩,
   ⟨0x124, .cfg, 0xFFF, 0x0⟩,
   ⟨0x140, .cfg, 0xFFFFFFF, 0x0⟩,
   ⟨0x144, .cfg, 0x3FFFFFF, 0x0⟩,
   ⟨0x148, .cfg, 0xFFFFFFF, 0x0⟩,
   ⟨0x14C, .cfg, 0x3FFFFFF, 0x0⟩,
   ⟨0x150, .cfg, 0xFFFFFFF, 0x0⟩,
   ⟨0x154, .cfg, 0x3FFFFFF, 0x0⟩,
   ⟨0x158, .cfg, 0xFFFFFFF, 0x0⟩,
   ⟨0x15C, .cfg, 0x3FFFFFF, 0x0⟩,
   ⟨0x160, .cfg, 0xFFFFFFF, 0x0⟩,
   ⟨0x164, .cfg, 0x3FFFFFF, 0x0⟩,
   ⟨0x168, .cfg, 0xFFFFFFF, 0x0⟩,
   ⟨0x16C, .cfg, 0x3FFFFFF, 0x0⟩,
   ⟨0x170, .cfg, 0xFFFFFFF, 0x0⟩,
   ⟨0x174, .cfg, 0x3FFFFFF, 0x0⟩,
   ⟨0x178, .cfg, 0xFFFFFFF, 0x0⟩,
   ⟨0x17C, .cfg, 0x3FFFFFF, 0x0⟩,
   ⟨0x180, .cfg, 0xFFFFFFF, 0x0⟩,
   ⟨0x184, .cfg, 0x3FFFFFF, 0x0⟩,
   ⟨0x188, .cfg, 0xFFFFFFF, 0x0⟩,
   ⟨0x18C, .cfg, 0x3FFFFFF, 0x0⟩,
   ⟨0x190, .cfg, 0xFFFFFFF, 0x0⟩,
   ⟨0x194, .cfg, 0x3FFFFFF, 0x0⟩,
   ⟨0x198, .cfg, 0xFFFFFFF, 0x0⟩,
   ⟨0x19C, .cfg, 0x3FFFFFF, 0x0⟩,
   ⟨0x1A0, .cfg, 0xFFFFFFF, 0x0⟩,
   ⟨0x1A4, .cfg, 0x3FFFFFF, 0x0⟩,
   ⟨0x1A8, .cfg, 0xFFFFFFF, 0x0⟩,
   ⟨0x1AC, .cfg, 0x3FFFFFF, 0x0⟩,
   ⟨0x1B0, .cfg, 0xFFFFFFF, 0x0⟩,
   ⟨0x1B4, .cfg, 0x3FFFFFF, 0x0⟩,
   ⟨0x1B8, .cfg, 0xFFFFFFF, 0x0⟩,
   ⟨0x1BC, .cfg, 0x3FFFFFF, 0x0⟩,
   ⟨0x800, .cfg, 0xFFFF0000, 0x0⟩,
   ⟨0x804, .cfg, 0xFFF, 0x0⟩,
   ⟨0x808, .cfg, 0xFFFFFF, 0x0⟩,
   ⟨0x80C, .cfg, 0xFFFF0000, 0x0⟩,
   ⟨0x810, .cfg, 0xFFF, 0x0⟩,
   ⟨0x814, .cfg, 0xFFFFFF, 0x0⟩,
   ⟨0x818, .cfg, 0x3, 0x3⟩,
   ⟨0x900, .cfg, 0x3, 0x2⟩,
   ⟨0x904, .stg, 0xFFFFFFFF, 0x3F800000⟩]

/-- Log unit page (R504, R162). -/
def lgRegs : List RegRow :=
  [⟨0x100, .cfg, 0x3F, 0x5⟩,
   ⟨0x104, .cfg, 0xFFFF0000, 0x0⟩,
   ⟨0x108, .cfg, 0xFFF, 0x0⟩,
   ⟨0x10C, .cfg, 0x7FFFFF, 0x400⟩,
   ⟨0x110, .cfg, 0xFFFFF000, 0x0⟩,
   ⟨0x114, .cfg, 0xFFFFFFFF, 0x0⟩,
   ⟨0x118, .cfg, 0x1F, 0xA⟩,
   ⟨0x11C, .live, 0xFFFFFFFF, 0x0⟩,
   ⟨0x120, .cfg, 0xFFFF0000, 0x0⟩,
   ⟨0x124, .cfg, 0xFFF, 0x0⟩,
   ⟨0x128, .cfg, 0xFFFFFFFF, 0x0⟩,
   ⟨0x12C, .cfg, 0xFFFFFFFF, 0x0⟩,
   ⟨0x200, .cfg, 0xFFFFFF80, 0x0⟩,
   ⟨0x204, .cfg, 0xFFF, 0x0⟩,
   ⟨0x208, .cfg, 0x1FFFF, 0x0⟩,
   ⟨0x20C, .live, 0x3, 0x3⟩]

/-- Snapshot DMA page (R503). -/
def sdRegs : List RegRow :=
  [⟨0x100, .cfg, 0xFFFFFFC0, 0x0⟩,
   ⟨0x104, .cfg, 0xFFF, 0x0⟩,
   ⟨0x108, .cfg, 0xFFF, 0x0⟩,
   ⟨0x10C, .cfg, 0xFF, 0x0⟩,
   ⟨0x110, .cfg, 0x107FF, 0x0⟩]

/-- Host interface page (R582). -/
def hostRegs : List RegRow :=
  [⟨0x104, .cfg, 0xF, 0x2⟩,
   ⟨0x108, .cfg, 0xFFF, 0x0⟩,
   ⟨0x10C, .cfg, 0x7FF, 0x0⟩,
   ⟨0x110, .cfg, 0xFFFFF000, 0x0⟩,
   ⟨0x114, .cfg, 0xFFFFFFFF, 0x0⟩,
   ⟨0x118, .cfg, 0x1F, 0xA⟩,
   ⟨0x11C, .cfg, 0x7FF, 0x0⟩]

/-- Calico page (R471). -/
def calRegs : List RegRow :=
  [⟨0x100, .cfg, 0xFFFF33, 0x1E0613⟩,
   ⟨0x104, .cfg, 0xFFFFFFFF, 0x78180349⟩]

/-- Random generator page (R264). -/
def rngRegs : List RegRow :=
  [⟨0x100, .cfg, 0xFFFFFFFF, 0x0⟩,
   ⟨0x104, .cfg, 0xFFFFFFFF, 0x0⟩,
   ⟨0x108, .cfg, 0xFFFFFFFF, 0x0⟩]

/-- Power and thermal page (R544). -/
def pwrRegs : List RegRow :=
  [⟨0x110, .stg, 0x1FFF, 0x1450⟩,
   ⟨0x114, .stg, 0x1FFF, 0x0⟩,
   ⟨0x118, .stg, 0x1FFF, 0x64⟩,
   ⟨0x11C, .cfg, 0xFF, 0x64⟩]

/-- The words of RT_MASK (R371), each with its 19 ports of 8 words. -/
def maskReg (off : Nat) : Option RegRow :=
  if 0x400 ≤ off && off < 0x400 + 32 * 19 && off % 4 = 0 then
    some ⟨off, .cfg, 0xFFFFFFFF, if (off - 0x400) % 32 = 0 then 1 else 0⟩
  else none

/-- The writable registers of a block. -/
def blkRegs : Blk → List RegRow
  | .mg => []
  | .panel => []
  | .felt => feltRegs
  | .mt => mtRegs
  | .stack => stackRegs
  | .engine => engineRegs
  | .router => routerRegs
  | .port => portRegs
  | .ce => ceRegs
  | .dsp => dspRegs
  | .ep => epRegs
  | .lg => lgRegs
  | .sd => sdRegs
  | .host => hostRegs
  | .cal => calRegs
  | .rng => rngRegs
  | .pwr => pwrRegs

/-- The writable part of a register, if it has one. -/
def regRow (b : Blk) (off : Nat) : Option RegRow :=
  match (blkRegs b).find? (fun r => r.off = off) with
  | some r => some r
  | none => if b = .router then maskReg off else none

/-- The counters of a block with their HOLD offsets (R200, R240, R259, R318, R352, R354, R402, R403, R439, R440, R472, R505, R543, R545, R583, R163). -/
def blkCounters : Blk → List (Nat × Nat)
  | .mg => []
  | .felt => [(0x180, 0x020), (0x184, 0x024), (0x188, 0x028)]
  | .mt => []
  | .stack => [(0x180, 0x020), (0x184, 0x024), (0x188, 0x028)]
  | .panel => [(0x180, 0x020), (0x184, 0x024), (0x188, 0x028)]
  | .engine => [(0x180, 0x020), (0x184, 0x024), (0x188, 0x028), (0x18C, 0x02C), (0x190, 0x030), (0x194, 0x034), (0x198, 0x038), (0x19C, 0x03C)]
  | .router => [(0x180, 0x020), (0x184, 0x024), (0x188, 0x028), (0x18C, 0x02C), (0x190, 0x030), (0x194, 0x034), (0x198, 0x038), (0x19C, 0x03C),
      (0x1A0, 0x040), (0x1A4, 0x044), (0x1A8, 0x048), (0x1AC, 0x04C), (0x1B0, 0x050)]
  | .port => [(0x180, 0x020), (0x184, 0x024), (0x188, 0x028), (0x18C, 0x02C), (0x190, 0x030), (0x194, 0x034), (0x198, 0x038)]
  | .ce => [(0x180, 0x020), (0x184, 0x024), (0x188, 0x028), (0x18C, 0x02C)]
  | .dsp => [(0x180, 0x020), (0x184, 0x024), (0x188, 0x028), (0x18C, 0x02C), (0x190, 0x030)]
  | .ep => [(0x200, 0x020), (0x204, 0x024), (0x208, 0x028), (0x20C, 0x02C), (0x210, 0x030), (0x840, 0x0C0), (0x844, 0x0C4), (0x848, 0x0C8), (0x914, 0x0CC)]
  | .lg => [(0x180, 0x020), (0x184, 0x024), (0x188, 0x028), (0x18C, 0x02C), (0x210, 0x0A0), (0x214, 0x0A4)]
  | .sd => [(0x180, 0x020), (0x184, 0x024), (0x188, 0x028)]
  | .host => [(0x180, 0x020), (0x184, 0x024), (0x188, 0x028), (0x18C, 0x02C)]
  | .cal => [(0x180, 0x020), (0x184, 0x024), (0x188, 0x028), (0x18C, 0x02C), (0x190, 0x030), (0x194, 0x034), (0x198, 0x038), (0x19C, 0x03C),
      (0x1A0, 0x040), (0x1A4, 0x044), (0x1A8, 0x048)]
  | .rng => []
  | .pwr => [(0x180, 0x020), (0x184, 0x024), (0x188, 0x028), (0x18C, 0x02C)]

/-- The value of a stored register at reset: a writable register's reset value, 0 for a counter or a HOLD copy. -/
def regReset (key : Nat) : Nat :=
  match pageBlk (key / 4096) with
  | some (b, _) => ((regRow b (key % 4096)).map (·.reset)).getD 0
  | none => 0

/-- PG_FEAT.CFG (R554). -/
def Blk.cfg : Blk → Bool
  | .mg => false
  | .felt => false
  | .panel => false
  | .engine => false
  | _ => true

/-- PG_FEAT.STAGED (R554). -/
def Blk.staged : Blk → Bool
  | .ep => true
  | .pwr => true
  | _ => false

end Sys2Proof.Machine
end

