-- ==== Sys2Proof/Machine/Ops.lean ====
section
/-! DEFINITION. The named operations over the module's state: registers and page headers, free values, event records and their delivery, MSI-X, output, the local address map, memory with poison, and CRC-32C. -/
namespace Sys2Proof.Machine

/-! Registers and pages -/

def pgGlobal : Nat := 0x0000
def pgFelt : Nat := 0x0010
def pgTime : Nat := 0x0011
def pgRouter : Nat := 0x0300
def pgColl : Nat := 0x0340
def pgDsp : Nat := 0x0360
def pgEp : Nat := 0x0370
def pgLog : Nat := 0x0378
def pgSnap : Nat := 0x0379
def pgHost : Nat := 0x0380
def pgCal : Nat := 0x0390
def pgRng : Nat := 0x03A0
def pgPwr : Nat := 0x03B0

/-- The page of stack i, of panel p, of port i (R551). -/
def pgStack (i : Nat) : Nat := 0x0040 + i
def pgPanel (p : Nat) : Nat := 0x0080 + p
def pgPort (i : Nat) : Nat := 0x0310 + i

/-- The page of a slot index 52p + s (R23). -/
def pgSlot (k : Nat) : Nat := 0x0100 + 64 * (k / 52) + k % 52

/-- A stored register: its value, or its reset value where none is listed. -/
def Mod.reg (m : Mod) (pg off : Nat) : Nat :=
  spRead (regReset (pg * 4096 + off)) m.regs (pg * 4096 + off)

/-- Stores a register (32 bits); a register at its reset value is not listed. -/
def Mod.setReg (m : Mod) (pg off v : Nat) : Mod :=
  { m with regs := spWrite (regReset (pg * 4096 + off)) m.regs (pg * 4096 + off) (v % 2 ^ 32) }

/-- Bits lo to lo + w - 1 of a register. -/
def Mod.fld (m : Mod) (pg off lo w : Nat) : Nat := bitsOf (m.reg pg off) lo w

/-- A one-bit field. -/
def Mod.flag (m : Mod) (pg off i : Nat) : Bool := bitAt (m.reg pg off) i

/-- A 64-bit value in two registers, low word first. -/
def Mod.reg64 (m : Mod) (pg lo hi : Nat) : Nat := m.reg pg lo + 2 ^ 32 * m.reg pg hi

/-- Adds to a 32-bit counter, which stops at 0xFFFF_FFFF (R318 and its fellows). -/
def Mod.bump (m : Mod) (pg off n : Nat) : Mod := m.setReg pg off (cap32 (m.reg pg off + n))

/-- Returns every stored register for which `p` holds to its reset value. -/
def Mod.dropRegs (m : Mod) (p : Nat → Nat → Bool) : Mod :=
  { m with regs := m.regs.filter (fun e => !p (e.1 / 4096) (e.1 % 4096)) }

/-- The header state of a page. -/
def Mod.page (m : Mod) (pg : Nat) : Page := spRead {} m.pages pg

def Mod.setPage (m : Mod) (pg : Nat) (p : Page) : Mod := { m with pages := spWrite {} m.pages pg p }

/-- PG_STATUS.ENABLED of a page with PG_FEAT.CFG = 1. -/
def Mod.on (m : Mod) (pg : Nat) : Bool := (m.page pg).enabled

/-- Command fields that act only while a page is enabled: a disable in progress turns them away already (R317, R560 and the worked example of the
register interface). -/
def Mod.acts (m : Mod) (pg : Nat) : Bool := m.on pg && !(m.page pg).busy

/-! Free values and output -/

/-- A free value (log entry 5), and the state that has used it. -/
def Mod.fresh (m : Mod) : W64 × Mod := (Config.freeValue m.free, { m with free := m.free + 1 })

def Mod.send (m : Mod) (o : Out) : Mod := { m with out := o :: m.out }

/-- Requests to host memory may be issued (R577, R578, R582). -/
def Mod.outbound (m : Mod) : Bool := m.host.bme && !m.host.d3

/-- Sends an MSI-X message, or sets its pending bit (R578, R579, R582). DESIGN CHOICE, log entry 45. -/
def Mod.msix (m : Mod) (vec : Nat) : Mod :=
  if m.outbound && m.on pgHost then m.send (.msix vec)
  else if m.host.msixPend.contains vec then m
  else { m with host := { m.host with msixPend := m.host.msixPend ++ [vec] } }

/-! Events -/

/-- The 32 bytes of an event record (R15). -/
def Event.bytes (e : Event) : List Nat :=
  leBytes 8 e.time ++ leBytes 2 e.page ++ leBytes 2 e.code ++ [e.sev, 0] ++ leBytes 2 e.modid
  ++ leBytes 4 e.d0 ++ leBytes 4 e.d1 ++ leBytes 4 e.d2 ++ leBytes 4 e.d3

/-- The event ring in host memory has room and may be written (R580, R582). -/
def Mod.evrRoom (m : Mod) : Bool :=
  m.outbound && m.on pgHost && m.flag pgHost 0x104 0
  && decide ((m.host.prod + 2 ^ 32 - m.host.cons) % 2 ^ 32 < 2 ^ m.fld pgHost 0x118 0 5)

/-- Writes one record to the event ring (R580 step 1). -/
def Mod.evrWrite (m : Mod) (e : Event) : Mod :=
  let base := m.reg pgHost 0x110 + 2 ^ 32 * m.reg pgHost 0x114
  let slot := m.host.prod % 2 ^ m.fld pgHost 0x118 0 5
  { m with host := { m.host with prod := (m.host.prod + 1) % 2 ^ 32 },
           out := .hostWrite (base + 32 * slot) e.bytes :: m.out }

/-- Event e stands after f: f is older, or of the same nanosecond and of no higher page (R18). -/
def Event.follows (e f : Event) : Bool := f.time ≠ e.time || decide (f.page ≤ e.page)

/-- Enters a record among others, newest first: those of one nanosecond stand by page (R18). -/
def enterLog (e : Event) : List (Event × Bool) → List (Event × Bool)
  | [] => [(e, false)]
  | x :: t => if e.follows x.1 then (e, false) :: x :: t else x :: enterLog e t

/-- Enters an event of SEV WARN or higher into the Felt log, a ring of 1,024 records (R581); the flag says that it has been read. -/
def Mod.feltLog (m : Mod) (e : Event) : Mod :=
  if e.sev ≥ 1 then { m with felt := { m.felt with log := (enterLog e m.felt.log).take 1024 } } else m

/-- Appends an event record to the list of all that the module has raised, the latest first, and drives FAULT_N low for SEV FATAL (R509). -/
def Mod.note (m : Mod) (e : Event) : Mod :=
  let m := { m with events := e :: m.events }.feltLog e
  if e.sev = 3 then { m with pins := { m.pins with faultN := false } } else m

def Mod.mkEvent (m : Mod) (pg code d0 d1 d2 d3 : Nat) : Event :=
  { time := m.time, page := pg, code := code, sev := sevOf code, modid := m.modid,
    d0 := d0 % 2 ^ 32, d1 := d1 % 2 ^ 32, d2 := d2 % 2 ^ 32, d3 := d3 % 2 ^ 32 }

/-- Writes waiting records while the ring has room (R580 step 2); while records have been lost they wait for the HOST_EVR_LOST record (R580 step 4). -/
def Mod.evrDrain : Nat → Mod → Mod
  | 0, m => m
  | k + 1, m =>
    if m.host.evLost ≠ 0 || !m.evrRoom then m
    else
      match m.host.evWait with
      | [] => m
      | e :: t => Mod.evrDrain k ({ m with host := { m.host with evWait := t } }.evrWrite e)

/-- At the end of a nanosecond with room, the HOST_EVR_LOST record (R580 step 4), unless the nanosecond raised a record of a lower page, which would
have to stand before it (R18): then it waits for a later one. DESIGN CHOICE, log entry 94. -/
def Mod.evrLost (m : Mod) : Mod :=
  if m.host.evLost = 0 || !m.evrRoom || m.host.evNow.any (fun x => decide (x.page < pgHost)) then m
  else
    let e := m.mkEvent pgHost Ev.hostEvrLost m.host.evLost m.host.prod m.host.cons 0
    ({ m with host := { m.host with evLost := 0 } }.note e).evrWrite e

/-- Sends HI_EVR_VEC for the groups written since the last one, where 10 µs have passed (R580 step 5). Before machine time is started nothing spaces
them: DESIGN CHOICE, log entry 94. -/
def Mod.evrIrq (m : Mod) : Mod :=
  if m.host.irqDue && (!m.mt.started || decide (m.host.irqAt ≤ m.time)) then
    ({ m with host := { m.host with irqDue := false, irqAt := m.time + 10000 } } : Mod).msix (m.fld pgHost 0x11C 0 11)
  else m

/-- The module `m` after a group of records, where any has been written since `old`: HI_EVR_VEC falls due when EVR_IRQ is 1 (R580 step 5). -/
def Mod.evrGroup (old m : Mod) : Mod :=
  if m.host.prod ≠ old.host.prod && m.flag pgHost 0x104 1 then ({ m with host := { m.host with irqDue := true } } : Mod).evrIrq else m

/-- Writes the records that wait while the ring has room, and signals the group (R580). -/
def Mod.evrFlush (m : Mod) : Mod := Mod.evrGroup m (Mod.evrDrain 300 m)

/-- Offers a record to the host ring: it waits behind those already waiting, at most 256 of them (R580 steps 1 to 3). -/
def Mod.evrOffer (m : Mod) (e : Event) : Mod :=
  if m.host.evWait.isEmpty && m.host.evLost = 0 && m.evrRoom then m.evrWrite e
  else if m.host.evWait.length < 256 then { m with host := { m.host with evWait := m.host.evWait ++ [e] } }
  else { m with host := { m.host with evLost := m.host.evLost + 1 } }.bump pgHost 0x180 1

/-- A nanosecond is over: its records are offered in the order of their pages, and HI_EVR_VEC follows the group that was written (R18, R580 step 5). -/
def Mod.evrSettle (m : Mod) : Mod :=
  if m.host.evNow.isEmpty then m else Mod.evrGroup m (m.host.evNow.foldl Mod.evrOffer { m with host := { m.host with evNow := [] } })

/-- What the ring takes as machine time moves on: the HOST_EVR_LOST record and what waits behind it, then the records of the nanosecond that is over. -/
def Mod.evrNext (m : Mod) : Mod :=
  (if m.host.evLost = 0 then m else Mod.evrGroup m (Mod.evrDrain 300 m.evrLost)).evrSettle

/-- Enters a record among those of the running nanosecond, by page (R18). -/
def enterNow (e : Event) : List Event → List Event
  | [] => [e]
  | x :: t => if x.page ≤ e.page then x :: enterNow e t else e :: x :: t

/-- A record for the host ring is kept until its nanosecond is over (R18, R580). DESIGN CHOICE, log entry 94. -/
def Mod.evrHold (m : Mod) (e : Event) : Mod :=
  if m.flag pgHost 0x104 0 && decide (m.fld pgHost 0x104 2 2 ≤ e.sev) then
    let m := if m.host.evNow.any (fun x => x.time ≠ e.time) then m.evrSettle else m
    { m with host := { m.host with evNow := enterNow e m.host.evNow } }
  else m

/-- Sets a PG_ERR bit and, when it rises with its enable set, signals HI_ERR_VEC (R557, R558). Answers whether it rose. -/
def Mod.errBit (m : Mod) (pg bit : Nat) : Mod × Bool :=
  let p := m.page pg
  if bitAt p.err bit then (m, false)
  else
    let m1 := m.setPage pg { p with err := setBits p.err bit 1 1 }
    (if bitAt p.errEn bit then m1.msix (m.fld pgHost 0x10C 0 11) else m1, true)

/-- Raises an event: the record, FAULT_N and its delivery (R15, R580, R581). -/
def Mod.record (m : Mod) (pg code d0 d1 d2 d3 : Nat) : Mod :=
  let e := m.mkEvent pg code d0 d1 d2 d3
  (m.note e).evrHold e

/-- A block raises an event; one of SEV ERROR or FATAL sets BLOCK_ERR of its page (PG_ERR of chapter 15). -/
def Mod.emit (m : Mod) (pg code d0 d1 d2 d3 : Nat) : Mod :=
  if (m.mkEvent pg code d0 d1 d2 d3).sev ≥ 2 then ((m.record pg code d0 d1 d2 d3).errBit pg 8).1 else m.record pg code d0 d1 d2 d3

/-- Sets CFG_IGNORED, CFG_MISMATCH, ACCESS_BAD or TIMEOUT of a page; the module raises its event when the bit rises (R557). That event is not the
block's, so BLOCK_ERR stays: DEDUCED from the worked example of chapter 15, log entry 35. -/
def Mod.pageErr (m : Mod) (pg bit code d0 d1 d2 d3 : Nat) : Mod :=
  let (m1, rose) := m.errBit pg bit
  if rose then m1.record pg code d0 d1 d2 d3 else m1

/-- A write discarded because of the page's state (R560). -/
def Mod.ignored (m : Mod) (pg off v init : Nat) : Mod := m.pageErr pg 0 Ev.cfgIgnored off v init 0

/-! CRC-32C -/

/-- One bit of CRC-32C, reflected. The polynomial is the Castagnoli polynomial that the name stands for: PRESUMED, log entry 12. -/
def crcBit (c : Nat) : Nat := if c % 2 = 1 then Nat.xor (c / 2) 0x82F63B78 else c / 2

def crcByte (c b : Nat) : Nat :=
  let x := Nat.xor c b
  crcBit (crcBit (crcBit (crcBit (crcBit (crcBit (crcBit (crcBit x)))))))

/-- CRC-32C of a list of bytes. -/
def crc32c (bs : List Nat) : Nat := Nat.xor (bs.foldl crcByte 0xFFFFFFFF) 0xFFFFFFFF

/-! The local address map -/

/-- The regions of R38. `es k off` is the engine store of slot 52p + s; `esHole` is its region outside a store. -/
inductive Region where
  | mem
  | es (k off : Nat)
  | esHole
  | ps (p off : Nat)
  | psHole
  | regs
  | ownEs (off : Nat)
  | ownPs (off : Nat)
  | reserved
  deriving DecidableEq, Repr, Inhabited

/-- The region of a local address (R38). -/
def regionOf (a : Nat) : Region :=
  if a < 0x28000000000 then .mem
  else if 0xF0000000000 ≤ a && a < 0xF0060000000 then
    let o := a - 0xF0000000000
    let s := o % 0x10000000 / 0x400000
    if s < 52 then .es (52 * (o / 0x10000000) + s) (o % 0x400000) else .esHole
  else if 0xF1000000000 ≤ a && a < 0xF1018000000 then
    let o := a - 0xF1000000000
    if o % 0x4000000 < 0x3000000 then .ps (o / 0x4000000) (o % 0x4000000) else .psHole
  else if 0xF2000000000 ≤ a && a < 0xF2004000000 then .regs
  else if 0xF3000000000 ≤ a && a < 0xF3000400000 then .ownEs (a - 0xF3000000000)
  else if 0xF3004000000 ≤ a && a < 0xF3007000000 then .ownPs (a - 0xF3004000000)
  else .reserved

/-- The local address of a byte of a slot's engine store, and of a panel store (R38). -/
def esAddr (k off : Nat) : Nat := 0xF0000000000 + k / 52 * 0x10000000 + k % 52 * 0x400000 + off
def psAddr (p off : Nat) : Nat := 0xF1000000000 + p * 0x4000000 + off

/-- Who makes an access, by the initiator types of R355 and R572; an engine is named by its slot. -/
inductive Init where
  | engine (k : Nat)
  | coll
  | dispatch
  | snapLog
  | epoch
  | host
  | remote (modid : Nat)
  | felt
  deriving DecidableEq, Repr, Inhabited

/-- The bytes of backed module memory (R38). -/
def Mod.memTop (m : Mod) : Nat := m.nStacks * 80 * 0x40000000

/-- The initiator is an engine, and which. -/
def Init.slot? : Init → Option Nat
  | .engine k => some k
  | _ => none

/-- The engine stores are reached by their own engine, the collective engine and the Felt controller (R41). -/
def Init.reachesStore (i : Init) (k : Nat) : Bool := i = .engine k || i = .coll || i = .felt

/-- Holes in the range of the engine stores are unbacked for those that may reach any of them, refused for the others (R40, R41). -/
def Init.reachesStores (i : Init) : Bool := i = .coll || i = .felt

/-- The panel stores are also reached by every engine and by other modules (R41). -/
def Init.reachesPanels : Init → Bool
  | .engine _ => true
  | .coll => true
  | .remote _ => true
  | .felt => true
  | _ => false

/-- What an access to a local address reaches: the address after aliases, or the code of its refusal (R39, R40, R41, R601). -/
def Mod.access (m : Mod) (i : Init) (a : Nat) : Except Nat Nat :=
  match regionOf a with
  | .reserved => .error Ev.addrUnbacked
  | .mem => if a < m.memTop then .ok a else .error Ev.addrUnbacked
  | .es k _ => if i.reachesStore k then .ok a else .error Ev.addrRefused
  | .esHole => .error (if i.reachesStores then Ev.addrUnbacked else Ev.addrRefused)
  | .ps _ _ => if i.reachesPanels then .ok a else .error Ev.addrRefused
  | .psHole => .error (if i.reachesPanels then Ev.addrUnbacked else Ev.addrRefused)
  | .regs => .error Ev.addrRefused
  | .ownEs off => match i.slot? with
    | some k => .ok (esAddr k off)
    | none => .error Ev.addrRefused
  | .ownPs off => match i.slot? with
    | some k => .ok (psAddr (k / 52) off)
    | none => .error Ev.addrRefused

/-- The logical engine that a slot backs (R22): the entry of its panel that names it. -/
def Mod.logicalOf (m : Mod) (k : Nat) : Nat :=
  let p := k / 52
  match (List.range 48).find? (fun j => let e := m.lmap.getD (48 * p + j) {}; e.valid && e.slot = k % 52) with
  | some j => 48 * p + j
  | none => 0x1FF

/-- The slot index behind a logical engine (R22). -/
def Mod.slotOf (m : Mod) (n : Nat) : Option Nat :=
  let e := m.lmap.getD n {}
  if n < 288 && e.valid then some (52 * (n / 48) + e.slot) else none

/-- The initiator type and number of R355 in one word. -/
def Mod.initWord (m : Mod) : Init → Nat
  | .engine k => 1 * 65536 + m.logicalOf k
  | .coll => 2 * 65536
  | .dispatch => 3 * 65536
  | .snapLog => 4 * 65536
  | .epoch => 5 * 65536
  | .host => 6 * 65536
  | .remote n => 7 * 65536 + n
  | .felt => 8 * 65536

/-- The initiator codes of register accesses: the host and the Felt management controller, which also acts for SMBus and MGMT requests (R572). -/
def hostCode : Nat := 6
def feltCode : Nat := 8

/-- The page that reports an initiator's refused access: the initiator's block. DEDUCED from R15, log entry 13. -/
def initPage : Init → Nat
  | .engine k => pgSlot k
  | .coll => pgColl
  | .dispatch => pgDsp
  | .snapLog => pgSnap
  | .epoch => pgEp
  | .host => pgHost
  | .remote _ => pgRouter
  | .felt => pgFelt

/-- Raises ADDR_UNBACKED or ADDR_REFUSED (R40 to R42, R355). -/
def Mod.addrEvent (m : Mod) (i : Init) (code a : Nat) : Mod :=
  m.emit (initPage i) code (m.initWord i) (a % 2 ^ 32) (a / 2 ^ 32) 0

/-- The first address of a range at which an access is refused, looking at the start and at every 64 KiB boundary (every border of R38 is one). -/
def Mod.firstBad (m : Mod) (i : Init) : Nat → Nat → Nat → Option (Nat × Nat)
  | 0, _, _ => none
  | fuel + 1, a, len =>
    if len = 0 then none
    else
      match m.access i a with
      | .error c => some (a, c)
      | .ok _ =>
        let step := min len (65536 - a % 65536)
        m.firstBad i fuel (a + step) (len - step)

/-! Memory and poison -/

/-- One byte of the local address space (after aliases). DESIGN CHOICE, log entry 6. -/
def Mod.rd (m : Mod) (a : Nat) : Nat := (spRead 0#8 m.mem a).toNat

/-- n bytes from an address. -/
def Mod.bytesAt (m : Mod) (a n : Nat) : List Nat := (List.range n).map (fun i => m.rd (a + i))

/-- Writes pairs of address and byte. -/
def Mod.wrPairs (m : Mod) (ws : List (Nat × Nat)) : Mod :=
  { m with mem := ws.foldl (fun l w => spWrite 0#8 l w.1 (BitVec.ofNat 8 w.2)) m.mem }

/-- The pairs of writing bytes from an address on. -/
def pairsAt (a : Nat) (bs : List Nat) : List (Nat × Nat) := bs.zipIdx.map (fun (b, i) => (a + i, b))

/-- The poison key of an address: its 64-byte granule of module memory (R325), its 64-bit word of an engine or panel store (R443). -/
def poisonKey (a : Nat) : Nat := if a < 0x28000000000 then a / 64 else a / 8

def insertNat (x : Nat) : List Nat → List Nat
  | [] => [x]
  | y :: t => if x < y then x :: y :: t else if x = y then y :: t else y :: insertNat x t

/-- The stack that holds a module-memory address (R320, R321). -/
def Mod.stackOf (m : Mod) (a : Nat) : Option Nat :=
  if m.nStacks = 0 then none
  else m.stks.findIdx? (fun k => k.st ≠ .fenced && k.slot = a / 512 % m.nStacks)

/-- The offset of a module-memory address within its stack (R321). -/
def Mod.stackOff (m : Mod) (a : Nat) : Nat := if m.nStacks = 0 then 0 else a / 512 / m.nStacks * 512 + a % 512

/-- The address lies in a FAILED stack (R326). -/
def Mod.inFailed (m : Mod) (a : Nat) : Bool :=
  if m.stks.any (fun k => k.st = .failed) && decide (a < 0x28000000000) then
    match m.stackOf a with
    | some i => (m.stks.getD i {}).st = .failed
    | none => false
  else false

/-- The first address of a range, at or after its start, whose granule or word reads as uncorrectable (R325, R326, R443). -/
def Mod.firstPoison (m : Mod) (a len : Nat) : Option Nat :=
  if len = 0 then none
  else
    let hit := (m.poison.filter (fun k => decide (poisonKey a ≤ k) && decide (k ≤ poisonKey (a + len - 1)))).head?
    let first := hit.map (fun k => max a (if a < 0x28000000000 then 64 * k else 8 * k))
    if m.stks.any (fun k => k.st = .failed) then
      match (List.range (len / 512 + 2)).find? (fun j => let x := if j = 0 then a else (a / 512 + j) * 512
                                                       decide (x < a + len) && m.inFailed x) with
      | some j =>
        let x := if j = 0 then a else (a / 512 + j) * 512
        match first with
        | some y => some (min x y)
        | none => some x
      | none => first
    else first

/-- Marks a granule or word as poisoned. -/
def Mod.setPoison (m : Mod) (a : Nat) : Mod :=
  { m with poison := insertNat (poisonKey a) m.poison, once := m.once.filter (· ≠ poisonKey a) }

/-- The data of an address is poisoned where it is next delivered; what is stored stays good (R445). -/
def Mod.poisonOnce (m : Mod) (a : Nat) : Mod :=
  if m.poison.contains (poisonKey a) then m else { m with poison := insertNat (poisonKey a) m.poison, once := insertNat (poisonKey a) m.once }

/-- The data of an address has been spoilt on a path: only its next delivery is poisoned (R445). -/
def Mod.spoilt (m : Mod) (a : Nat) : Bool := m.once.contains (poisonKey a)

/-- Writes bytes at a local address: a write that covers a whole granule or word clears its poison, a FAILED stack discards it (R325, R326). -/
def Mod.wr (m : Mod) (a : Nat) (bs : List Nat) : Mod :=
  let n := bs.length
  let size := if a < 0x28000000000 then 64 else 8
  let m := { m with poison := m.poison.filter (fun k => !(decide (a ≤ size * k) && decide (size * (k + 1) ≤ a + n)
                                                       && decide (poisonKey a ≤ k) && decide (k ≤ poisonKey (a + n)))) }
  m.wrPairs ((pairsAt a bs).filter (fun w => !m.inFailed w.1))

/-- The reader of a slot's engine store. -/
def Mod.es (m : Mod) (k : Nat) : Nat → Nat := fun off => m.rd (esAddr k off)

/-- Writes pairs of engine-store offset and byte in a slot's store; a word that is written whole loses its poison (R443). -/
def Mod.wrEs (m : Mod) (k : Nat) (ws : List (Nat × Nat)) : Mod :=
  let m := if m.poison.isEmpty then m else
    { m with poison := m.poison.filter (fun w => !(List.range 8).all (fun i => ws.any (fun p => esAddr k p.1 = 8 * w + i))) }
  m.wrPairs (ws.map (fun w => (esAddr k w.1, w.2)))

/-! Module lookups -/

/-- Applies a function to each element of a list, threading the module. -/
def Mod.each {α : Type} (m : Mod) (l : List α) (f : Mod → α → Mod) : Mod := l.foldl f m

def Mod.eng (m : Mod) (k : Nat) : Engine := m.engs.getD k {}
def Mod.setEng (m : Mod) (k : Nat) (e : Engine) : Mod := { m with engs := m.engs.set k e }
def Mod.slot (m : Mod) (k : Nat) : SlotDep := m.dep.slots.getD k {}
def Mod.setSlot (m : Mod) (k : Nat) (x : SlotDep) : Mod := { m with dep := { m.dep with slots := m.dep.slots.set k x } }
def Mod.port (m : Mod) (i : Nat) : Port := m.ports.getD i {}
def Mod.setPort (m : Mod) (i : Nat) (p : Port) : Mod := { m with ports := m.ports.set i p }
def Mod.stk (m : Mod) (i : Nat) : Stack := m.stks.getD i {}
def Mod.setStk (m : Mod) (i : Nat) (x : Stack) : Mod := { m with stks := m.stks.set i x }

/-- MG_CONFIG.ACTIVE_ENG: the logical engines with VALID = 1. -/
def Mod.activeEng (m : Mod) : Nat := (m.lmap.filter (·.valid)).length

/-- The stage has reached BOOTED and is not HALTED (R517). -/
def Mod.booted (m : Mod) : Bool := m.felt.stage = .booted || m.felt.stage = .ready

/-- The word of an MG_LMAP entry. -/
def LmapEntry.word (e : LmapEntry) : Nat := b2n e.valid * 2 ^ 31 + b2n e.subst * 2 ^ 30 + e.slot

/-- RNG_EPOCH and RNG_SEED (R263, R264). -/
def Mod.rngEpoch (m : Mod) : Nat := m.reg pgRng 0x108
def Mod.rngSeed (m : Mod) : W64 := BitVec.ofNat 64 (m.reg64 pgRng 0x100 0x104)

/-- Adds to a 64-bit counter held as two words, which stops at its largest value (R200). -/
def Mod.bump64 (m : Mod) (pg lo hi n : Nat) : Mod :=
  let v := min (m.reg64 pg lo hi + n) (2 ^ 64 - 1)
  (m.setReg pg lo (v % 2 ^ 32)).setReg pg hi (v / 2 ^ 32)

/-- The power stage has brought up the islands (R507, R510 step 3). -/
def Mod.powerUp (m : Mod) : Mod := { m with pwr := { m.pwr with st := .on }, pins := { m.pins with pwrGood := true } }

/-- The engine holds an array pass. -/
def Engine.inPass (e : Engine) : Bool := e.jobs.any (fun j => match j with | .mma _ => true | _ => false)

/-- The fast cycles of a nanosecond in the counters of a slot (R200). -/
def Mod.countCycles (n : Nat) (m : Mod) (k : Nat) : Mod :=
  let m := if (m.eng k).st = .run then m.bump64 (pgSlot k) 0x180 0x184 n else m
  if (m.eng k).inPass then m.bump64 (pgSlot k) 0x188 0x18C n else m

/-- The codewords that a port's link corrected and failed to correct within a nanosecond, and a heartbeat that failed to come (R363, R403). -/
def Mod.countFec (m : Mod) (i : Nat) : Mod :=
  if (m.port i).lanes = 0 then m
  else
    let (v, m) := m.fresh
    ((m.bump (pgPort i) 0x188 (v.toNat % 2)).bump (pgPort i) 0x18C (v.toNat / 2 % 2)).bump (pgPort i) 0x190 (v.toNat / 4 % 2)

/-- What the block counts by itself in a nanosecond: fast cycles, of which there are at most two, codewords of links, and correctable errors of the
host link. The amounts are free values. DESIGN CHOICE, log entry 28. -/
def Mod.countTime (m : Mod) : Mod :=
  let (v, m) := m.fresh
  let m := m.each (List.range 312) (Mod.countCycles (v.toNat % 3))
  let m := m.each (List.range 19) Mod.countFec
  if m.host.rate = 0 then m else m.bump pgHost 0x18C (v.toNat / 4 % 2)

/-- Machine time advances by a nanosecond of the reference, as steered, less a part of a backward correction (R526). -/
def Mod.passTime (m : Mod) : Mod :=
  let d := min m.mt.slew ((Config.slewRate m.time).toNat % 100001)
  let t : Int := m.mt.frac + 1000000000 + m.mt.rate - d
  { m with time := m.time + (t / 1000000000).toNat, mt := { m.mt with frac := t % 1000000000, slew := m.mt.slew - d } }

/-- The energy of the limiter's load in a nanosecond (R536). -/
def Mod.countLoad (m : Mod) : Mod :=
  if !m.pwr.load then m
  else
    let e := m.pwr.loadE + m.pwr.added
    let m := { m with pwr := { m.pwr with loadE := e % 10 ^ 15 } }
    if e < 10 ^ 15 then m else m.bump pgPwr 0x18C (e / 10 ^ 15)

/-- The next nanosecond of the reference bears another TIME, or machine time has not been started. -/
def Mod.timeMoves (m : Mod) : Bool := !m.mt.started || decide (m.passTime.time ≠ m.time)

/-- One nanosecond passes: the records of its TIME, once that is over, and a signal that is due go to the host (R18, R580), machine time advances once it has been started (R526, R527), the counters of what runs
by itself count, and what a command has begun ends: a compute reset (R518) and the rise of the rails (R507). DESIGN CHOICE, log entry 2. -/
def Mod.idle (m : Mod) : Mod :=
  let m := (if m.timeMoves then m.evrNext else m).evrIrq
  let m := { m with crst := false }
  let m := if m.pwr.st = .powering then m.powerUp else m
  (if m.mt.started then m.passTime else m).countTime.countLoad

/-- A meaning as the machine runs it: an effect on the module alone; the queue of commands is left as it is. -/
def run (f : Mod → Mod) (s : State) : Host.Outcome State Fault Refusal := .next { s with core := f s.core }

end Sys2Proof.Machine
end

