-- ==== Sys2Proof/Machine/Net.lean ====
section
/-! DEFINITION. Coordinates, boxes, groups and peers (R6, R356, R357, R369, R370, R406), the packet layout (R365, R366), and the making of a message (R375, R376, R391, R395). -/
namespace Sys2Proof.Machine

/-- A module's place in the machine (R6). -/
structure Coord where
  x : Nat
  y : Nat
  z : Nat
  w : Nat
  deriving DecidableEq, Repr, Inhabited

def coordOf (id : Nat) : Coord := ⟨bitsOf id 11 5, bitsOf id 7 4, bitsOf id 3 4, bitsOf id 0 3⟩

def Coord.id (c : Coord) : Nat := c.x * 2048 + c.y * 128 + c.z * 8 + c.w

/-- An axis of the torus. -/
inductive Axis where
  | x | y | z
  deriving DecidableEq, Repr, Inhabited

def Coord.at (c : Coord) : Axis → Nat
  | .x => c.x
  | .y => c.y
  | .z => c.z

def Coord.set (c : Coord) : Axis → Nat → Coord
  | .x, v => { c with x := v }
  | .y, v => { c with y := v }
  | .z, v => { c with z := v }

/-- A box along one axis: base, length (0 unused), ring. -/
structure Span where
  base : Nat
  len : Nat
  ring : Bool
  deriving DecidableEq, Repr, Inhabited

/-- A box (R369). -/
structure Box where
  x : Span
  y : Span
  z : Span
  w : Span
  deriving DecidableEq, Repr, Inhabited

def Box.at (b : Box) : Axis → Span
  | .x => b.x
  | .y => b.y
  | .z => b.z

/-- The machine ring length of an axis (RT_GEOM). -/
def Mod.ringLen (m : Mod) : Axis → Nat
  | .x => m.fld pgRouter 0x104 0 6
  | .y => m.fld pgRouter 0x104 8 5
  | .z => m.fld pgRouter 0x104 16 5

/-- RT_BOXb. -/
def Mod.box (m : Mod) (b : Nat) : Box :=
  let f := fun o => m.reg pgRouter (0x110 + 16 * b + o)
  { x := ⟨bitsOf (f 0) 0 5, bitsOf (f 0) 8 6, bitAt (f 0) 16⟩, y := ⟨bitsOf (f 4) 0 4, bitsOf (f 4) 8 5, bitAt (f 4) 16⟩,
    z := ⟨bitsOf (f 8) 0 4, bitsOf (f 8) 8 5, bitAt (f 8) 16⟩, w := ⟨bitsOf (f 12) 0 3, bitsOf (f 12) 8 4, true⟩ }

/-- Position of a coordinate in a span of a ring of length n: (v - base) mod n (R369). -/
def spanPos (s : Span) (n v : Nat) : Nat := if n = 0 then 0 else (v + n * (s.base / n + 1) - s.base) % n

/-- A module lies in a box (R369); a box with XLEN = 0 is unused. -/
def Mod.inBox (m : Mod) (b : Box) (c : Coord) : Bool :=
  decide (b.x.len ≠ 0) && decide (spanPos b.x (m.ringLen .x) c.x < b.x.len) && decide (spanPos b.y (m.ringLen .y) c.y < b.y.len)
  && decide (spanPos b.z (m.ringLen .z) c.z < b.z.len) && decide (spanPos b.w 8 c.w < b.w.len)

/-- The used boxes in order. -/
def Mod.boxes (m : Mod) : List Box := ((List.range 4).map m.box).filter (fun b => b.x.len ≠ 0)

/-- The slice of this module (R369). -/
def Mod.sliceId (m : Mod) : Nat := m.fld pgRouter 0x100 0 8

def Mod.here (m : Mod) : Coord := coordOf m.modid

/-- The box of the slice that holds a module. -/
def Mod.boxOf (m : Mod) (c : Coord) : Option Box :=
  if m.sliceId = 0 then none else m.boxes.find? (fun b => m.inBox b c)

/-- The own box (R369). -/
def Mod.ownBox (m : Mod) : Option Box := m.boxOf m.here

/-- The next module along an axis, by R357: within the own box where its axis is a ring shorter than the machine's, else on the machine ring. -/
def Mod.neighbour (m : Mod) (a : Axis) (plus : Bool) : Coord :=
  let n := m.ringLen a
  let v := m.here.at a
  let step := fun (p len : Nat) => if plus then (p + 1) % len else (p + len - 1) % len
  match m.ownBox with
  | some b =>
    let s := b.at a
    if s.ring && decide (s.len < n) && decide (0 < s.len) then
      m.here.set a ((s.base + step (spanPos s n v) s.len) % n)
    else m.here.set a (if n = 0 then v else step v n)
  | none => m.here.set a (if n = 0 then v else step v n)

/-- The axis and direction of a port index from 7 on (R356): true for plus. -/
def portAxis (i : Nat) : Axis × Bool :=
  (if i < 11 then .x else if i < 15 then .y else .z, (i - 7) % 4 < 2)

/-- The module expected at a port (R356, R357), or the one PT_CTRL.EXP names. -/
def Mod.expected (m : Mod) (i : Nat) : Nat :=
  if m.flag (pgPort i) 0x110 0 then m.fld (pgPort i) 0x110 16 16
  else if i < 7 then ({ m.here with w := (m.here.w + i + 1) % 8 } : Coord).id
  else (m.neighbour (portAxis i).1 (portAxis i).2).id

/-- The port expected at the peer's end (R356). -/
def expectedPort (i : Nat) : Nat :=
  if i < 7 then 6 - i
  else if (i - 7) % 4 < 2 then i + 2 else i - 2

/-- The other port of a bundle; W ports form none (R356). -/
def bundlePartner (i : Nat) : Option Nat := if i < 7 then none else some (if (i - 7) % 2 = 0 then i + 1 else i - 1)

/-- The mask of a link for a slice: the AND of both ends, bit 0 always 1 (R371). -/
def Mod.maskBit (m : Mod) (i slice : Nat) : Bool :=
  let own := bitAt (m.reg pgRouter (0x400 + 32 * i + 4 * (slice / 32))) (slice % 32)
  match (m.port i).peerMask with
  | some p => own && bitAt p slice
  | none => own

/-- The ports that carry packets. -/
def Mod.upPorts (m : Mod) : List Nat := (List.range 19).filter (fun i => (m.port i).st = .up)

/-! Groups -/

/-- A position of a box axis by its place in rank order. -/
def axisPos (m : Mod) (b : Box) (c : Coord) : Nat × Nat × Nat × Nat :=
  (spanPos b.x (m.ringLen .x) c.x, spanPos b.y (m.ringLen .y) c.y, spanPos b.z (m.ringLen .z) c.z, spanPos b.w 8 c.w)

/-- The modules of a box in rank order, X fastest and W slowest, along the axes that AXES names; the others keep `c`'s coordinate (R406). -/
def Mod.boxMembers (m : Mod) (b : Box) (axes : Nat) (c : Coord) : List Nat :=
  let along := fun (named : Bool) (s : Span) (n v : Nat) =>
    if named then (List.range s.len).map (fun k => if n = 0 then v else (s.base + k) % n) else [v]
  let ws := along (bitAt axes 0) b.w 8 c.w
  let zs := along (bitAt axes 3) b.z (m.ringLen .z) c.z
  let ys := along (bitAt axes 2) b.y (m.ringLen .y) c.y
  let xs := along (bitAt axes 1) b.x (m.ringLen .x) c.x
  (ws.map (fun w => (zs.map (fun z => (ys.map (fun y => xs.map (fun x => (Coord.mk x y z w).id))).flatten)).flatten)).flatten

/-- The members of a context's group in rank order (R406). -/
def Mod.group (m : Mod) (axes : Nat) : List Nat :=
  if bitAt axes 4 then (m.boxes.map (fun b => m.boxMembers b 0xF m.here)).flatten
  else
    match m.ownBox with
    | some b => m.boxMembers b axes m.here
    | none => [m.modid]

/-- A module's rank in a group. -/
def rankOf (g : List Nat) (id : Nat) : Nat := g.findIdx (fun x => x = id)

/-! Schedules (R430) -/

/-- The coordinate one step nearer to `o` on the way by which a block travels from `o` to `p` along an axis of a box: the shorter way around a ring,
plus at a tie, or along a line (R430). -/
def Mod.stepBack (m : Mod) (b : Box) (a : Axis) (o p : Coord) : Nat :=
  let s := b.at a
  let n := m.ringLen a
  let po := spanPos s n (o.at a)
  let pp := spanPos s n (p.at a)
  let plus := if s.ring then decide (2 * ((pp + s.len - po) % max s.len 1) ≤ s.len) else decide (po < pp)
  let len := max s.len 1
  (s.base + (if plus then pp + len - 1 else pp + 1) % len) % max n 1

/-- The module from which module p has a block that starts at module o, both in one group (R430): the axes are passed in the order X, Y, Z, W, a W port
leads straight from o's W, and another box is reached straight from o. DEDUCED, log entry 93. -/
def Mod.prevHop (m : Mod) (o p : Nat) : Nat :=
  let co := coordOf o
  let cp := coordOf p
  match m.boxOf co with
  | none => o
  | some b =>
    if !m.inBox b cp then o
    else if co.w ≠ cp.w then ({ cp with w := co.w } : Coord).id
    else
      match [Axis.z, .y, .x].find? (fun a => co.at a ≠ cp.at a) with
      | some a => (cp.set a (m.stepBack b a co cp)).id
      | none => o

/-- The members of a group to which this module passes on a block that starts at module o (R430). -/
def Mod.nexts (m : Mod) (g : List Nat) (o : Nat) : List Nat := g.filter (fun p => p ≠ o && p ≠ m.modid && m.prevHop o p = m.modid)

/-! Recursive doubling over n members (R430): those beyond the largest power of two fold in at level 0 and have the result at the end; the others exchange
at level l + 1 with the member whose rank differs in bit l. DEDUCED, log entry 93. -/

/-- What member `me` takes: level and rank of the sender. -/
def dblIn (n me : Nat) : List (Nat × Nat) :=
  let p := 2 ^ n.log2
  if p ≤ me then [] else (if me + p < n then [(0, me + p)] else []) ++ (List.range n.log2).map (fun l => (l + 1, me ^^^ 2 ^ l))

/-- What member `me` sends: level and rank of the receiver. -/
def dblOut (n me : Nat) : List (Nat × Nat) :=
  let p := 2 ^ n.log2
  if p ≤ me then [(0, me - p)] else (List.range n.log2).map (fun l => (l + 1, me ^^^ 2 ^ l))

/-- The member to which `me` sends the result, and the one from which it has it. -/
def dblTo (n me : Nat) : Option Nat := if me + 2 ^ n.log2 < n then some (me + 2 ^ n.log2) else none
def dblFrom (n me : Nat) : Option Nat := if 2 ^ n.log2 ≤ me then some (me - 2 ^ n.log2) else none

/-- What a member has to send at a level: its own value joined with everything that it takes at lower levels, once that is here. -/
def dblValue {α : Type} (join : α → α → α) (got : Nat × Nat → Option α) (ins : List (Nat × Nat)) (lvl : Nat) (own : α) : Option α :=
  (ins.filter (fun x => decide (x.1 < lvl))).foldl (fun acc x => match acc, got x with
    | some a, some b => some (join a b)
    | _, _ => none) (some own)

/-- A level above every level of a doubling: what has been joined there is the result. -/
def dblTop : Nat := 17

/-! Packets -/

/-- The 64 header bytes of a packet with a given CRC field; HPAR is computed (R365, R366). -/
def parityOf (bs : List Nat) : Nat := (bs.map (fun b => (List.range 8).foldl (fun a i => a + bitsOf b i 1) 0)).sum % 2

def hparOf (h : List Nat) : Nat :=
  ((List.range 7).map (fun g => parityOf ((h.drop (8 * g)).take 8) * 2 ^ g)).sum + parityOf ((h.drop 56).take 4) * 128

/-- Header bytes 0 to 55 (R365). -/
def Packet.head (p : Packet) : List Nat :=
  leBytes 2 p.dst ++ leBytes 2 p.src ++ leBytes 2 p.inter ++ [p.slice % 256, p.tc % 8 + 8 * b2n p.direct + 16 * b2n p.last, p.type % 256,
    p.defl % 256, b2n p.phase + 2 * b2n p.urgent, p.hops % 256] ++ leBytes 4 p.seq ++ leBytes 2 p.idx ++ leBytes 2 p.cnt
  ++ leBytes 2 p.payload.length ++ leBytes 2 p.inc ++ leBytes 8 p.age ++ leBytes 8 p.addr ++ leBytes 8 p.arg ++ [p.attempt % 256]
  ++ List.replicate 7 0

/-- The CRC of a packet over header bytes 0 to 8, 12 to 55 and the payload (R365). -/
def packetCrc (head payload : List Nat) : Nat := crc32c (head.take 9 ++ (head.drop 12).take 44 ++ payload)

/-- The bytes of a packet as it is sent (R365, R366). -/
def Packet.bytes (p : Packet) : List Nat :=
  let h := p.head ++ leBytes 4 (packetCrc p.head p.payload)
  h ++ [hparOf h] ++ List.replicate 3 0 ++ p.payload

/-- Reads a packet from its header bytes and payload; the check of the CRC field is kept with it. -/
def Packet.ofBytes (h payload : List Nat) : Packet :=
  let f := fun (o n : Nat) => ofLe ((h.drop o).take n)
  { dst := f 0 2, src := f 2 2, inter := f 4 2, slice := f 6 1, tc := bitsOf (f 7 1) 0 3, direct := bitAt (f 7 1) 3, last := bitAt (f 7 1) 4,
    type := f 8 1, defl := f 9 1, phase := bitAt (f 10 1) 0, urgent := bitAt (f 10 1) 1, hops := f 11 1, seq := f 12 4, idx := f 16 2,
    cnt := f 18 2, inc := f 22 2, age := f 24 8, addr := f 32 8, arg := f 40 8, attempt := f 48 1,
    crcOk := f 56 4 = packetCrc (h.take 56) payload, payload := payload }

/-- A reserved field or a reserved TYPE is not zero, or LEN does not match the payload (R365 to R367). -/
def headerBad (h payload : List Nat) : Bool :=
  let f := fun (o n : Nat) => ofLe ((h.drop o).take n)
  decide (h.length ≠ 64) || decide (bitsOf (f 7 1) 5 3 ≠ 0) || decide (bitsOf (f 10 1) 2 6 ≠ 0) || decide (bitsOf (f 20 2) 11 5 ≠ 0)
  || decide (bitsOf (f 20 2) 0 11 ≠ payload.length) || decide (bitsOf (f 32 8) 44 20 ≠ 0) || decide (f 49 7 ≠ 0) || decide (f 61 3 ≠ 0)
  || decide (f 8 1 = 0) || decide (7 < f 8 1)

/-! Message types (R367) -/

def tyWrite : Nat := 1
def tyReadReq : Nat := 2
def tyReadData : Nat := 3
def tyEvInc : Nat := 4
def tyAck : Nat := 5
def tyColl : Nat := 6
def tyMgmt : Nat := 7

/-- A message of this type waits for an answer (R367). -/
def needsAck (ty : Nat) : Bool := ty = tyWrite || ty = tyReadReq || ty = tyEvInc || ty = tyColl

/-- The packets of a message: one for each 1,024 bytes, at least one. -/
def pktCount (n : Nat) : Nat := max 1 (ceilDiv n 1024)

/-- DST lies one hop away over an UP port (R375). -/
def Mod.oneHop (m : Mod) (dst : Nat) : Bool := m.upPorts.any (fun i => (m.port i).peerMod = dst)

/-- A message is routed between boxes of the slice (R375, R383). -/
def Mod.betweenBoxes (m : Mod) (dst : Nat) : Bool :=
  match m.boxOf (coordOf dst), m.ownBox with
  | some b, some own => decide (b ≠ own)
  | _, _ => false

/-- Puts a message into the router's queue of messages to inject: its number (R393), its class and DIRECT (R375, R383, R395). -/
def Mod.postIn (m : Mod) (slice : Nat) (o : Owner) (dst ty tc : Nat) (direct : Bool) (addr arg : Nat) (data : List Nat) : Mod :=
  let far := ty ≠ tyMgmt && m.betweenBoxes dst
  let seq := spRead 0 m.rt.sendSeq dst
  let msg : Msg :=
    { owner := o, dst := dst, seq := seq, type := ty, tc := if far then 7 else tc, slice := slice,
      direct := ty = tyAck || ty = tyMgmt || (m.flag pgRouter 0x10C 0 && m.oneHop dst) || far || direct || m.ownBox.isNone,
      addr := addr, arg := arg, data := data, left := List.range (pktCount data.length) }
  let m := if ty = tyColl then m.bump pgColl 0x188 1 else m
  { m with rt := { m.rt with msgs := m.rt.msgs ++ [msg], sendSeq := spWrite 0 m.rt.sendSeq dst ((seq + 1) % 2 ^ 32) } }

/-- A message of the module's own slice, or of slice 0 for MGMT (R373, R374). -/
def Mod.post (m : Mod) (o : Owner) (dst ty tc : Nat) (direct : Bool) (addr arg : Nat) (data : List Nat) : Mod :=
  m.postIn (if ty = tyMgmt then 0 else m.sliceId) o dst ty tc direct addr arg data

/-- ARG of a COLL packet (R431). -/
def collArg (ctx kind digest idx node : Nat) : Nat :=
  ctx % 256 + kind * 2 ^ 8 + (digest % 65536) * 2 ^ 16 + (idx % 65536) * 2 ^ 32 + (node % 65536) * 2 ^ 48

end Sys2Proof.Machine
end

