-- ==== Sys2Proof/Machine/MemOps.lean ====
section
/-! DEFINITION. Step health and the veto (R337 to R343), errors of stacks and stores (R324 to R326, R443, R454), the protected-set filter (R328 to R333, R604), and reads and writes of module memory by each initiator. -/
namespace Sys2Proof.Machine

/-! Step health and the veto -/

/-- An epoch is open: the controller is neither IDLE nor ROLLED_BACK (R334). -/
def Epoch.isOpen (e : Epoch) : Bool := e.st ≠ .idle && e.st ≠ .rolledBack

/-- Joins bits into the step-health word of a step; for another step, or after the contribution, they are recorded as late (R338). -/
def Mod.health (m : Mod) (step : Nat) (bits : W32) : Mod :=
  if m.ep.isOpen && m.ep.step = step && !m.ep.contributed then
    { m with ep := { m.ep with sh := m.ep.sh ||| bits } }
  else
    { m with ep := { m.ep with shLate := m.ep.shLate ||| bits } }.emit pgEp Ev.epochLateHealth bits.toNat step m.ep.step 0

/-- Joins bits into the health word of the open step; with no epoch open there is none (R325). -/
def Mod.healthOpen (m : Mod) (bits : W32) : Mod := if m.ep.isOpen then m.health m.ep.step bits else m

def shKfault : W32 := 1#32
def shSuspect : W32 := 2#32
def shGnormNf : W32 := 4#32
def shPool : W32 := 8#32
def shMemUe : W32 := 16#32
def shColl : W32 := 32#32
def shWatchdog : W32 := 64#32

/-- The collective context of the vote (R425). -/
def Mod.voteCtx (m : Mod) : Nat := m.fld pgEp 0x108 16 8

/-- The members of the vote, the whole slice, in rank order (R406, R425). -/
def Mod.voters (m : Mod) : List Nat := m.group 16

/-- The content of a message of the vote: health word, update-done flags, phase and disagreement, STEP, RNG_EPOCH (R339, R340). DESIGN CHOICE of layout,
log entry 14. -/
def Vote.bytes (v : Vote) : List Nat :=
  leBytes 4 v.word.toNat ++ leBytes 4 (b2n (decide (v.kind = 2)) + 2 * b2n v.skew + 4 * v.upd) ++ leBytes 4 v.step ++ leBytes 4 v.epoch

/-- Sends a COLL message of the vote, kind 4 or 5, with the seal's ordinal as its index (R425, R431). -/
def Mod.votePost (m : Mod) (dst kind ord node : Nat) (data : List Nat) : Mod :=
  m.post .none dst tyColl 2 (m.oneHop dst) 0 (collArg m.voteCtx kind 0 ord node) data

/-- Sends a veto onward on the broadcast schedule of the module that raised it, which NODE names (R425, R430). -/
def Mod.vetoOn (m : Mod) (v : Vote) : Mod := m.each (m.nexts m.voters v.src) (fun m d => m.votePost d 5 v.ord v.src v.bytes)

/-- The messages of the running vote of a kind. -/
def Mod.votesOf (m : Mod) (kind : Nat) : List Vote := m.ep.votes.filter (fun v => v.ord = m.ep.ord && v.kind = kind)

/-- What this module adds to a combination of the vote, or says in a veto (R339). -/
def Mod.ownVote (m : Mod) (kind : Nat) (word : W32) (upd : Nat) : Vote :=
  { src := m.modid, ord := m.ep.ord, kind, word, upd, step := m.ep.step, epoch := m.rngEpoch }

/-- Contributions are combined exactly (R340). -/
def Vote.join (a b : Vote) : Vote :=
  { a with word := a.word ||| b.word, upd := a.upd + b.upd, skew := a.skew || b.skew || a.step ≠ b.step || a.epoch ≠ b.epoch,
           step := min a.step b.step, epoch := min a.epoch b.epoch }

/-- The message of a kind and level from the member of a rank. -/
def Mod.voteFrom (m : Mod) (kind : Nat) (x : Nat × Nat) : Option Vote :=
  (m.votesOf kind).find? (fun v => v.lvl = x.1 && m.voters[x.2]? = some v.src)

/-- What this module has to send at a level of a combination, once it can (R340, R430). -/
def Mod.voteAt (m : Mod) (kind lvl : Nat) : Option Vote :=
  let g := m.voters
  dblValue Vote.join (m.voteFrom kind) (dblIn g.length (rankOf g m.modid)) lvl (m.ownVote kind m.ep.sh 1)

/-- The result of a combination (R340, R341). -/
def Mod.voteResult (m : Mod) (kind : Nat) : Option Vote :=
  let g := m.voters
  match dblFrom g.length (rankOf g m.modid) with
  | some r => m.voteFrom kind (dblTop, r)
  | none => m.voteAt kind dblTop

/-- The module takes part in a combination: it has sent its contribution, or holds the decision to commit (R339, R341). -/
def Mod.votes (m : Mod) (kind : Nat) : Bool :=
  if kind = 1 then m.ep.st = .opened && m.ep.contributed else m.ep.st = .voting && m.ep.decision = .commit

/-- The messages of a combination that this module is to send: level and receiver. -/
def Mod.voteOuts (m : Mod) : List (Nat × Nat) :=
  let g := m.voters
  let me := rankOf g m.modid
  dblOut g.length me ++ ((dblTo g.length me).map (dblTop, ·)).toList

/-- Sends what a combination allows by now, each message once (R340, R430). -/
def Mod.voteGo (m : Mod) (kind : Nat) : Mod :=
  if !m.votes kind then m
  else m.each m.voteOuts (fun m x =>
    match m.voteAt kind x.1 with
    | some v =>
      if m.ep.given.contains (kind, x.1) then m
      else { m.votePost (m.voters.getD x.2 0) 4 m.ep.ord x.1 v.bytes with ep := { m.ep with given := (kind, x.1) :: m.ep.given } }
    | none => m)

/-- The OR of the module's health word and every word received in the running vote (R343). -/
def Mod.joinedWord (m : Mod) : W32 := (m.ep.votes.filter (fun v => v.ord = m.ep.ord)).foldl (fun w v => w ||| v.word) m.ep.sh

/-- Publishes the slice-wide word; the SHRDs that wait for the word of this step have it (R234, R340). -/
def Mod.publishSh (m : Mod) (word : W32) : Mod :=
  { m with ep := { m.ep with shSlice := word, published := true },
           engs := m.engs.map (fun e => match e.wait with
             | .sh d step none => if step = m.ep.step then { e with wait := .sh d step (some word.toNat) } else e
             | _ => e) }

/-- Decides ROLLBACK: publishes the word and leaves OPEN or VOTING for ROLLING_BACK (R340, R343). -/
def Mod.decideRollback (m : Mod) (word : W32) : Mod :=
  ({ m with ep := { m.ep with decision := .rollback, st := .rollingBack, restoring := false, watchdog := false } } : Mod).publishSh word

/-- A veto has been sent or received: a module that holds no decision decides ROLLBACK (R343, R344). -/
def Mod.heedVeto (m : Mod) (word : W32) : Mod :=
  if m.ep.st = .opened then { m with ep := { m.ep with contributed := true } }.decideRollback (word ||| m.joinedWord) else m

/-- Sends the veto with a health word, once in a step, and heeds it (R339, R343, R344). -/
def Mod.forceVeto (m : Mod) (word : W32) : Mod :=
  let m := if m.ep.vetoed then m else { m.vetoOn (m.ownVote 3 word 0) with ep := { m.ep with vetoed := true } }
  m.heedVeto word

/-- Sets bits of the health word and sends the veto, when an epoch is OPEN or VOTING (R326, R462, R520). Answers whether it did. -/
def Mod.vetoWith (m : Mod) (bits : W32) : Mod × Bool :=
  if m.ep.st = .opened || m.ep.st = .voting then
    let m := { m with ep := { m.ep with sh := m.ep.sh ||| bits } }
    (m.forceVeto m.ep.sh, true)
  else (m, false)

/-! Errors of stores and stacks -/

/-- Hours and seconds in nanoseconds. -/
def hourNs : Nat := 3600000000000
def secNs : Nat := 1000000000

/-- The transient count of a slot within the last WINDOW_H hours (R454). -/
def Mod.transientCount (m : Mod) (k : Nat) : Nat :=
  ((m.slot k).transients.filter (fun t => decide (m.time < t + m.fld pgCal 0x104 16 8 * hourNs))).length

/-- Adds one to a slot's transient count; at TRANS_LIMIT the slot is to be fenced (R454, R458). -/
def Mod.transient (m : Mod) (k : Nat) : Mod :=
  let s := m.slot k
  let m := m.setSlot k { s with transients := m.time :: s.transients }
  if m.transientCount k ≥ m.fld pgCal 0x104 8 8 && s.st ≠ .fenced && s.st ≠ .fused && s.fencePend.isNone then
    m.setSlot k { m.slot k with fencePend := some 2 }
  else m

/-- Detail word 3 of a dependability event: panel and slot (R473). -/
def slotWord (k : Nat) : Nat := k / 52 * 65536 + k % 52 * 256

/-- Stack i enters FAILED (R326). Cause 1 PHY, 2 uncorrectable rate. -/
def Mod.stackFail (m : Mod) (i cause : Nat) : Mod :=
  if (m.stk i).st = .failed || (m.stk i).st = .fenced then m
  else
    let m := m.setStk i { m.stk i with st := .failed, fencePend := true }
    let m := m.emit (pgStack i) Ev.stackFailed i cause m.ep.step 0
    let m := if m.ep.st = .opened || m.ep.st = .voting then (m.vetoWith shMemUe).1 else m.healthOpen shMemUe
    { m with dsp := { m.dsp with stopped := true } }

/-- An uncorrectable read at an address: of a stack (R325, R326), or of an engine or panel store (R443, R454). Data that a path has spoilt is poisoned
in this delivery alone, and no stored word is bad (R445). -/
def Mod.ueRead (m : Mod) (a : Nat) : Mod :=
  if m.spoilt a then
    { m with poison := m.poison.filter (· ≠ poisonKey a), once := m.once.filter (· ≠ poisonKey a) }
  else
  match regionOf a with
  | .mem =>
    match m.stackOf a with
    | none => m
    | some i =>
      let off := m.stackOff a
      let k := m.stk i
      let times := m.time :: k.ueTimes.filter (fun t => decide (m.time < t + secNs))
      let m := (m.setStk i { k with errAddr := off, ueTimes := times }).bump (pgStack i) 0x184 1
      let m := m.emit (pgStack i) Ev.memUe i (off % 2 ^ 32) (off / 2 ^ 32) m.ep.step
      let m := m.healthOpen shMemUe
      if times.length > 16 then m.stackFail i 2 else m
  | .es k off =>
    (m.bump pgCal 0x198 1 |>.emit pgCal Ev.sramUe 1 off (m.logicalOf k) (slotWord k)).transient k
  | .ps _ off => m.bump pgCal 0x198 1 |>.emit pgCal Ev.sramUe 2 off 0x1FF 0xFFFFFFFF
  | _ => m

/-! The protected set and the shadow pool -/

/-- The used ranges of the protected set: first page and pages (R328). -/
def Mod.ranges (m : Mod) : List (Nat × Nat) :=
  (List.range 16).filterMap (fun r =>
    let len := m.reg pgEp (0x144 + 8 * r)
    if len = 0 then none else some (m.reg pgEp (0x140 + 8 * r), len))

/-- A 64 KiB page belongs to the protected set while the epoch controller page is enabled (R328, R332). -/
def Mod.isProt (m : Mod) (pg : Nat) : Bool :=
  m.on pgEp && m.ranges.any (fun r => decide (r.1 ≤ pg) && decide (pg < r.1 + r.2))

/-- The number of protected pages. -/
def Mod.protCount (m : Mod) : Nat := (m.ranges.map (·.2)).sum

/-- The page of index j, in range order and page order (R329). -/
def nthProt : List (Nat × Nat) → Nat → Option Nat
  | [], _ => none
  | (b, l) :: t, j => if j < l then some (b + j) else nthProt t (j - l)

/-- The index of a page (R329). -/
def protIndex : List (Nat × Nat) → Nat → Option Nat
  | [], _ => none
  | (b, l) :: t, pg => if b ≤ pg && pg < b + l then some (pg - b) else (protIndex t pg).map (· + l)

/-- The tag states of a page (R330): an unlisted page has no slot and is PENDING while a snapshot is active. -/
def Mod.pageSt (m : Mod) (pg : Nat) : PageSt :=
  match m.ep.pages.find? (fun e => e.1 = pg) with
  | some e => e.2
  | none => { s := if m.ep.snapActive then .pending else .none }

/-- The slots of the pool that hold the directory (R329). -/
def Mod.dirSlots (m : Mod) : Nat := ceilDiv (m.reg pgEp 0x11C * 8) 65536

/-- The slot that a page's S state holds. -/
def heldBy : SState → Option Nat
  | .shadowed x => some x
  | _ => none

/-- The slots that the tags of a list of pages hold; a shared slot counts once (R330). -/
def slotsOf (l : List (Nat × PageSt)) : List Nat := ((l.map (fun e => e.2.eslot.toList ++ (heldBy e.2.s).toList)).flatten).eraseDups

/-- The slots that a tag holds. -/
def Mod.usedSlots (m : Mod) : List Nat := slotsOf m.ep.pages

/-- Writes an 8-byte entry of the page-state table or of the pool's directory (R329). -/
def Mod.poolEntry (m : Mod) (a : Nat) (what : List Nat) : Mod := m.wr a (leBytes 8 (Config.poolEntry what).toNat)

/-- What a page-state entry tells of its page. -/
def PageSt.words (p : PageSt) : List Nat :=
  [match p.eslot with | some x => x + 1 | none => 0, b2n p.opt, match p.s with | .none => 0 | .pending => 1 | .shadowed x => x + 2]

/-- Gives the pages their tag states; the entries of the pages whose state changes, and of the slots that are taken or freed, follow in module memory
(R329, R330). -/
def Mod.setPages (m : Mod) (l : List (Nat × PageSt)) : Mod :=
  let old := m.ep.pages
  let now := fun (l : List (Nat × PageSt)) (pg : Nat) => (l.find? (fun e => e.1 = pg)).map (·.2)
  let moved := (((old ++ l).map (·.1)).eraseDups).filter (fun pg => now old pg ≠ now l pg)
  let slots := ((slotsOf old ++ slotsOf l).eraseDups).filter (fun x => (slotsOf old).contains x ≠ (slotsOf l).contains x)
  let m := { m with ep := { m.ep with pages := l } }
  let m := moved.foldl (fun m pg => match protIndex m.ranges pg with
    | some j => m.poolEntry (m.reg64 pgEp 0x120 0x124 + 8 * j) (m.pageSt pg).words
    | none => m) m
  slots.foldl (fun m x => m.poolEntry (m.reg64 pgEp 0x114 0x118 + 8 * x) [b2n ((slotsOf l).contains x)]) m

/-- Gives one page its tag states. -/
def Mod.setPageSt (m : Mod) (pg : Nat) (s : PageSt) : Mod := m.setPages ((pg, s) :: m.ep.pages.filter (fun e => e.1 ≠ pg))

/-- EP_POOL_FREE: the free slots. -/
def Mod.poolFree (m : Mod) : Nat := if m.on pgEp then m.reg pgEp 0x11C - m.dirSlots - m.usedSlots.length else 0

/-- The lowest free slot. DESIGN CHOICE of which one, log entry 15. -/
def Mod.freeSlot (m : Mod) : Option Nat :=
  let used := m.usedSlots
  ((List.range (used.length + 1)).map (· + m.dirSlots)).find? (fun x => decide (x < m.reg pgEp 0x11C) && !used.contains x)

/-- The local address of a pool slot (R329). -/
def Mod.slotAddr (m : Mod) (x : Nat) : Nat := m.reg64 pgEp 0x114 0x118 + 65536 * x

/-- The granules of a 64 KiB page, as addresses divided by 64, that read as uncorrectable (R325, R326). -/
def Mod.badGranules (m : Mod) (a : Nat) : List Nat :=
  if m.stks.any (fun k => k.st = .failed) then
    ((List.range 1024).map (· + a / 64)).filter (fun k => m.poison.contains k || m.inFailed (64 * k))
  else m.poison.filter (fun k => decide (a / 64 ≤ k) && decide (k < a / 64 + 1024))

/-- Each of the given granules is read once (R325). -/
def Mod.ueReads (m : Mod) (keys : List Nat) : Mod := keys.foldl (fun m k => m.ueRead (64 * k)) m

/-- Copies a 64 KiB page with its poison; each poisoned granule is an uncorrectable read (R325, R331, R336). Answers whether one was met. DEDUCED, log entry 62. -/
def Mod.copyPage (m : Mod) (src dst : Nat) : Mod × Bool :=
  let keys := m.badGranules src
  let m := m.ueReads keys
  let rest := m.poison.filter (fun k => !(decide (dst / 64 ≤ k) && decide (k < dst / 64 + 1024)))
  ({ m with mem := spCopy 0#8 m.mem src dst 65536,
            poison := keys.foldl (fun l k => insertNat (k - src / 64 + dst / 64) l) rest,
            once := m.once.filter (fun k => !(decide (dst / 64 ≤ k) && decide (k < dst / 64 + 1024))) }, !keys.isEmpty)

/-- Ends the active snapshot without its manifest becoming complete: tag S releases every slot (R349, R491, R495). -/
def Mod.endSnap (m : Mod) : Mod :=
  let keep := (m.ep.pages.map (fun e => (e.1, { e.2 with s := SState.none }))).filter (fun e => e.2.eslot.isSome)
  let m := { m with ep := { m.ep with snapActive := false }, sd := { m.sd with active := false, aborted := true } }.setPages keep
  m.bump pgSnap 0x184 1

/-- The protected pages not yet drained (SD_LEFT). -/
def Mod.snapLeft (m : Mod) : Nat := if m.sd.active then m.sd.pages - m.sd.drained.length else 0

/-- ABORT_SNAP, or an abort for want of a slot (R333, R349). -/
def Mod.abortSnap (m : Mod) : Mod :=
  let drained := m.sd.drained.length
  let left := m.snapLeft
  m.endSnap.emit pgEp Ev.snapPoolAbort m.ep.step drained left 0

/-- Takes a free slot, aborting an active snapshot when there is none (R333 steps 1 to 3). -/
def Mod.allocSlot (m : Mod) : Option Nat × Mod :=
  match m.freeSlot with
  | some x => (some x, m)
  | none =>
    if m.ep.snapActive then
      let m := m.abortSnap
      (m.freeSlot, m)
    else (none, m)

def Mod.trackFree (m : Mod) : Mod := { m with ep := { m.ep with minFree := min m.ep.minFree m.poolFree } }

/-- The filter admits a write to a protected page, making the copy it needs, or refuses it with its event (R331, R333, R334). DEDUCED, log entry 41. -/
def Mod.admitWrite (m : Mod) (i : Init) (pg : Nat) (opt : Bool) : Mod × Bool :=
  let opened := m.ep.st = .opened || m.ep.st = .voting
  if i = .snapLog && !opened then (m, true)                     -- R479
  else if !(opened || (m.ep.st = .rollingBack && !m.ep.restoring)) then
    (m.emit pgEp Ev.epochNotOpen pg m.ep.st.code m.ep.step (m.initWord i), false)
  else
    let p := m.pageSt pg
    let needE := p.eslot.isNone
    if !needE && p.s ≠ .pending then (m, true)
    else
      let (x, m) := m.allocSlot
      let p := m.pageSt pg
      let needS := p.s = .pending && m.ep.snapActive
      match x with
      | some x =>
        let (m, bad) := m.copyPage (pg * 65536) (m.slotAddr x)
        let m := if bad then m.emit pgEp Ev.epochShadowUe pg x m.ep.step 0 else m
        let p := { p with eslot := if needE then some x else p.eslot, opt := if needE then opt else p.opt,
                          s := if needS then .shadowed x else p.s }
        ((m.setPageSt pg p).trackFree.bump pgEp 0x200 1, true)
      | none =>
        if needE then
          let m := m.emit pgEp Ev.epochPoolExhausted pg (m.reg pgEp 0x11C) m.ep.step (m.initWord i)
          (m.healthOpen shPool, false)
        else (m, true)

/-! Access by initiators -/

/-- Writes bytes that lie in one 64 KiB page, after aliases. Module memory passes the filter. -/
def Mod.storePage (m : Mod) (i : Init) (a : Nat) (bs : List Nat) (opt : Bool) : Mod × Bool :=
  if a < 0x28000000000 && m.isProt (a / 65536) then
    let (m, ok) := m.admitWrite i (a / 65536) opt
    (if ok then m.wr a bs else m, ok)
  else (m.wr a bs, true)

/-- Writes bytes at a resolved address, page by page; answers the address of the first refused page. -/
def Mod.storeAt (m : Mod) (i : Init) (opt : Bool) : Nat → Nat → List Nat → Mod × Option Nat
  | 0, _, _ => (m, none)
  | fuel + 1, a, bs =>
    if bs.isEmpty then (m, none)
    else
      let n := 65536 - a % 65536
      let (m1, ok) := m.storePage i a (bs.take n) opt
      if ok then Mod.storeAt m1 i opt fuel (a + n) (bs.drop n) else (m1, some a)

/-- Pages that a range of n bytes can touch, with one to spare. -/
def pageFuel (n : Nat) : Nat := n / 65536 + 3

/-- A write by an initiator: the address is checked where each page begins; what lies before the first refusal is written (R40, R41, R333).
Answers the address of the refusal. -/
def Mod.store (m : Mod) (i : Init) (a : Nat) (bs : List Nat) (opt : Bool) : Mod × Option Nat :=
  let bad := m.firstBad i (pageFuel bs.length) a bs.length
  let n := match bad with
    | some (x, _) => x - a
    | none => bs.length
  let part := bs.take n
  let done := match m.access i a with
    | .ok a' => m.storeAt i opt (pageFuel part.length) a' part
    | .error _ => (m, none)
  match done.2 with
  | some x => (done.1, some x)
  | none =>
    match bad with
    | some (x, c) => (done.1.addrEvent i c x, some x)
    | none => (done.1, none)

/-- What a read by an initiator meets. -/
inductive Load where
  | ok (bytes : List Nat)
  | refused (addr code : Nat)
  | poisoned (addr : Nat)
  deriving DecidableEq, Repr, Inhabited

/-- A read by an initiator: refused (R40, R41), poisoned (R325, R443), or its bytes. The events and counts of a failure are raised. -/
def Mod.load (m : Mod) (i : Init) (a n : Nat) : Mod × Load :=
  match m.firstBad i (pageFuel n) a n with
  | some (x, c) => (m.addrEvent i c x, .refused x c)
  | none =>
    match m.access i a with
    | .error c => if n = 0 then (m, .ok []) else (m.addrEvent i c a, .refused a c)
    | .ok a' =>
      match m.firstPoison a' n with
      | some x => (m.ueRead x, .poisoned (a + (x - a')))
      | none => (m, .ok (m.bytesAt a' n))

/-- A write by dispatch, the log unit or the snapshot hardware whose refusal is only reported (R604). -/
def Mod.put (m : Mod) (i : Init) (a : Nat) (bs : List Nat) : Mod := (m.store i a bs false).1

end Sys2Proof.Machine
end

