-- ==== Sys2Proof/Machine/DspOps.lean ====
section
/-! DEFINITION. The shared operations of dispatch: queues and their entries in memory (R283 to R293, R606), halts, event counters with the tails that follow them (R290, R310 to R313, R410), signals, fault reports and the indices (R293, R306), and the input log's item buffer (R483). -/
namespace Sys2Proof.Machine

/-! Queues -/

def Mod.queue (m : Mod) (q : Nat) : Queue := spRead {} m.dsp.queues q

def Mod.setQueueRaw (m : Mod) (q : Nat) (x : Queue) : Mod := { m with dsp := { m.dsp with queues := spWrite {} m.dsp.queues q x } }

/-- The local address of a Queue Table entry (R282). -/
def Mod.qtAddr (m : Mod) (q : Nat) : Nat := m.reg64 pgDsp 0x100 0x104 + 64 * q

/-- Writes the fields that dispatch owns back to the entry in memory (R283, R286). -/
def Mod.writeBack (m : Mod) (q : Nat) : Mod :=
  let x := m.queue q
  let a := m.qtAddr q
  let m := m.put .dispatch (a + 20) (leBytes 4 x.head ++ leBytes 4 x.free ++ leBytes 4 x.doneIdx)
  let m := m.put .dispatch (a + 33) [x.state.code]
  let m := m.put .dispatch (a + 40) (leBytes 2 x.errCode)
  let m := m.put .dispatch (a + 44) (leBytes 4 x.errIdx ++ leBytes 4 x.tasks)
  if x.tailsrc then m.put .dispatch (a + 16) (leBytes 4 x.tail) else m

/-- Changes a queue and writes its entry back. -/
def Mod.setQueue (m : Mod) (q : Nat) (x : Queue) : Mod := (m.setQueueRaw q x).writeBack q

/-- The index at `head` is one that `tail` has passed, both running freely modulo 2^32 (R289). -/
def covered (head tail : Nat) : Bool := decide (0 < (tail + 2 ^ 32 - head) % 2 ^ 32) && decide ((tail + 2 ^ 32 - head) % 2 ^ 32 < 2 ^ 31)

/-- The entry of a queue is used now, where it is held on the die (R287). -/
def Mod.usedNow (m : Mod) (q : Nat) : Mod :=
  let seq := m.dsp.seq + 1
  let m := { m with dsp := { m.dsp with seq := seq } }
  if (m.queue q).cached then m.setQueueRaw q { m.queue q with used := seq } else m

/-- Holds a queue's entry on the die: it is read where it is not there, and the least recently used one that is not pinned is evicted when 512 are held
(R287). What the entry says is what dispatch wrote back (R286); a read that fails is reported as such a read is, and changes nothing here. DEDUCED, log
entry 95. -/
def Mod.touch (m : Mod) (q : Nat) : Mod :=
  let m := m.usedNow q
  if (m.queue q).cached then m
  else
    let held := m.dsp.queues.filter (fun e => e.2.cached)
    let m := (m.bump pgDsp 0x188 1).load .dispatch (m.qtAddr q) 64 |>.1
    let m :=
      if held.length < 512 then m
      else
        match (held.filter (fun e => !e.2.pinned)).foldl (fun b e => match b with
            | none => some e
            | some y => if e.2.used < y.2.used then some e else some y) (none : Option (Nat × Queue)) with
        | some e => m.setQueueRaw e.1 { e.2 with cached := false }
        | none => m
    m.setQueueRaw q { m.queue q with cached := true, used := m.dsp.seq }

/-- Halts a queue: ERR_CODE, ERR_IDX, MSI-X when IRQ_HALT is 1; a HALTED or DRAINING queue keeps its state (R291, R306, R606). -/
def Mod.qHalt (m : Mod) (q code idx : Nat) : Mod :=
  let x := m.queue q
  let m := m.setQueue q { x with errCode := code, errIdx := idx, state := if x.state = .active then .halted else x.state }
  if x.irqHalt then m.msix x.msix else m

/-- Offers a new TAIL to a queue (R291). -/
def Mod.newTail (m : Mod) (q t : Nat) : Mod :=
  let x := m.queue q
  if (t + 2 ^ 32 - x.free) % 2 ^ 32 > 2 ^ x.rlog then
    (m.emit pgDsp Ev.queueOverrun t x.free (2 ^ x.rlog) q).qHalt q Ev.queueOverrun x.head
  else
    let m := if x.state = .active && t ≠ x.tail then m.touch q else m
    let x := { m.queue q with tail := t }
    if x.tailsrc then m.setQueue q x else m.setQueueRaw q x

/-! Collective contexts: their tails and halts -/

def Mod.ctx (m : Mod) (c : Nat) : Context := spRead {} m.ce.ctxs c

def Mod.setCtxRaw (m : Mod) (c : Nat) (x : Context) : Mod := { m with ce := { m.ce with ctxs := spWrite {} m.ce.ctxs c x } }

/-- The local address of a Context Table entry (R405). -/
def Mod.ctAddr (m : Mod) (c : Nat) : Nat := m.reg64 pgColl 0x100 0x104 + 128 * c

/-- Writes the fields that the engine owns to the Context Table entry (R405, R410). -/
def Mod.ctxBack (m : Mod) (c : Nat) : Mod :=
  let x := m.ctx c
  let a := m.ctAddr c
  let m := m.put .coll (a + 12) (leBytes 4 x.head ++ leBytes 4 x.doneIdx)
  let m := m.put .coll (a + 21) [x.state.code]
  let m := m.put .coll (a + 54) (leBytes 2 x.errCode ++ leBytes 4 x.errIdx ++ leBytes 4 x.ops)
  if x.tailsrc then m.put .coll (a + 8) (leBytes 4 x.tail) else m

def Mod.setCtx (m : Mod) (c : Nat) (x : Context) : Mod := (m.setCtxRaw c x).ctxBack c

/-- Halts a context with a code (R410, R427). -/
def Mod.ctxHalt (m : Mod) (c code idx : Nat) : Mod :=
  let x := m.ctx c
  let m := m.setCtx c { x with errCode := code, errIdx := idx, state := if x.state = .active then .halted else x.state }
  if x.irqHalt then m.msix x.msix else m

/-- Offers a new TAIL to a context (R410). -/
def Mod.ctxTail (m : Mod) (c t : Nat) : Mod :=
  let x := m.ctx c
  if (t + 2 ^ 32 - x.doneIdx) % 2 ^ 32 > 2 ^ x.rlog then
    (m.emit pgColl Ev.collOverrun t x.doneIdx (2 ^ x.rlog) c).ctxHalt c Ev.collOverrun x.head
  else
    let x := { x with tail := t }
    if x.tailsrc then m.setCtx c x else m.setCtxRaw c x

/-! Event counters -/

/-- An event counter; every counter is 0 at reset (R310). -/
def Mod.ctr (m : Mod) (c : Nat) : Nat := spRead 0 m.dsp.counters c

/-- Gives a counter a value; queues and contexts whose TAIL it supplies follow (R290, R410). -/
def Mod.setCtr (m : Mod) (c v : Nat) : Mod :=
  let was := m.ctr c
  let m := { m with dsp := { m.dsp with counters := spWrite 0 m.dsp.counters c v } }
  let m := m.each m.dsp.tasks (fun m t =>
    if was ≠ v && !t.ready && t.desc.waits.any (fun w => w.1 = c) && (m.queue t.q).state = .active then m.touch t.q else m)
  let m := m.each m.dsp.queues (fun m e =>
    if e.2.tailsrc && e.2.tailEvc = c && (e.2.state = .active || e.2.state = .halted) && e.2.tail ≠ v % 2 ^ 32 then m.newTail e.1 (v % 2 ^ 32) else m)
  m.each m.ce.ctxs (fun m e =>
    if e.2.tailsrc && e.2.tailEvc = c && (e.2.state = .active || e.2.state = .halted) && e.2.tail ≠ v % 2 ^ 32 then m.ctxTail e.1 (v % 2 ^ 32) else m)

/-- Adds to a counter, which stops at 2^64 - 1 (R310). -/
def Mod.addCtr (m : Mod) (c n : Nat) : Mod := m.setCtr c (min (m.ctr c + n) (2 ^ 64 - 1))

/-- An increment of a counter here or on another module; an amount of 0 changes nothing (R312). -/
def Mod.signal (m : Mod) (o : Owner) (counter modid : Nat) (remote : Bool) (inc : Nat) : Mod :=
  if inc = 0 then m
  else if remote && modid ≠ m.modid then m.post o modid tyEvInc 1 false 0 (counter + inc * 2 ^ 16) []
  else m.addCtr counter inc

/-- Applies a task's signals (R306 step 2). -/
def Mod.taskSignals (m : Mod) (q idx : Nat) (d : TaskDesc) : Mod :=
  m.each d.sigs (fun m s => m.signal (.task q idx) s.counter s.modid s.remote s.inc)

/-- A signal entry laid out as in R294: counter, module ID, REMOTE, increment. -/
def sigOf (x : Nat) : Signal := ⟨bitsOf x 0 16, bitsOf x 16 16, bitAt x 32, bitsOf x 40 24⟩

/-! Tasks -/

/-- The engine set of a task, in ascending order (R294). -/
def TaskDesc.engines (d : TaskDesc) : List Nat :=
  ((List.range 6).map (fun p => if bitAt d.pmask p then (List.range 48).filterMap (fun i => if bitAt d.imask i then some (48 * p + i) else none)
                                else [])).flatten

def Mod.task? (m : Mod) (q idx : Nat) : Option Task := m.dsp.tasks.find? (fun t => t.q = q && t.idx = idx)

/-- Replaces a task that dispatch holds. -/
def Mod.setTask (m : Mod) (t : Task) : Mod :=
  { m with dsp := { m.dsp with tasks := m.dsp.tasks.map (fun u => if u.q = t.q && u.idx = t.idx then t else u) } }

def Mod.dropTask (m : Mod) (q idx : Nat) : Mod :=
  { m with dsp := { m.dsp with tasks := m.dsp.tasks.filter (fun u => !(u.q = q && u.idx = idx)) } }

/-- A logical engine is reserved for a gang task (R298). -/
def Mod.reservedFor (m : Mod) (n : Nat) : Option (Nat × Nat) := (m.dsp.tasks.find? (fun t => t.reserved.contains n)).map (fun t => (t.q, t.idx))

/-- A kernel fault of slot k reaches dispatch: ENG_KERNEL_FAULT, the task's first fault, and step health when STEP_BOUND is 1 (R306). -/
def Mod.faultReport (m : Mod) (k code : Nat) : Mod :=
  match (m.eng k).task with
  | none => m
  | some (q, idx) =>
    let n := m.logicalOf k
    let m := m.bump pgDsp 0x184 1 |>.emit pgDsp Ev.engKernelFault n code idx q
    match m.task? q idx with
    | none => m
    | some t =>
      let t := if t.faultCode = 0 then { t with faultCode := code, faultEng := n } else t
      let m := m.setTask t
      if t.desc.stepBound then m.health t.desc.step shKfault else m

/-- FREE follows DONE, but stops at the first completed optimiser task whose step has not ended (R293). -/
def freeFrom (done : List DoneTask) (q : Nat) : Nat → Nat → Nat → Nat
  | 0, free, _ => free
  | k + 1, free, d =>
    if free = d then free
    else if done.any (fun t => t.q = q && t.idx = free && t.opt && !t.ended) then free
    else freeFrom done q k ((free + 1) % 2 ^ 32) d

/-- DONE passes every leading completed task (R293). -/
def doneFrom (done : List DoneTask) (q : Nat) : Nat → Nat → Nat
  | 0, d => d
  | k + 1, d => if done.any (fun t => t.q = q && t.idx = d) then doneFrom done q k ((d + 1) % 2 ^ 32) else d

/-- Moves DONE and FREE of a queue and forgets the tasks that both have passed (R293). -/
def Mod.advance (m : Mod) (q : Nat) : Mod :=
  let x := m.queue q
  let d := doneFrom m.dsp.done q (m.dsp.done.length + 1) x.doneIdx
  let f := freeFrom m.dsp.done q (2 ^ x.rlog + 1) x.free d
  let passed := fun (i : Nat) => decide ((i + 2 ^ 32 - x.free) % 2 ^ 32 < (f + 2 ^ 32 - x.free) % 2 ^ 32)
  let m := { m with dsp := { m.dsp with done := m.dsp.done.filter (fun t => !(t.q = q && passed t.idx)) } }
  if d = x.doneIdx && f = x.free then m else m.setQueue q { x with doneIdx := d, free := f }

/-- A step ends in COMMIT, ROLLBACK or a skip: optimiser tasks of it no longer hold FREE back, and signals still held for it are
dropped, since c can no longer become final for them (R293, R308). DEDUCED, log entry 16. -/
def Mod.stepEnded (m : Mod) (step : Nat) : Mod :=
  let d := m.dsp
  let done := d.done.map (fun (t : DoneTask) => if t.opt && t.step = step then { t with ended := true } else t)
  let held := d.held.filter (fun (h : Held) => h.desc.step ≠ step)
  let m := { m with dsp := { d with done := done, held := held, redo := d.redo.filter (fun x => x.2.2 ≠ step), redoFull := if d.redoFull = some step then none else d.redoFull, stopOpt := if d.stopOpt = some step then none else d.stopOpt } }
  m.each (m.dsp.queues.map (·.1)) (fun m q => m.advance q)

/-! The input log's buffer (R483) -/

/-- Items that the log unit may hold. -/
def itemCap : Nat := 4096

/-- The buffer has an entry with which an item merges. -/
def itemMerges (l : List LogItem) : LogItem → Bool
  | .ovr e _ o _ => l.any (fun y => match y with | .ovr e' _ o' _ => e = e' && o = o' | _ => false)
  | _ => false

/-- Adds an item: overrides that share an entry and an OPID are merged; those of different tasks only when they are written, so that
R484 can take one task's back. DEDUCED, log entry 43. -/
def addItem : List LogItem → LogItem → List LogItem
  | [], x => [x]
  | .ovr e b o t :: l, .ovr e' b' o' t' =>
    if e = e' && o = o' && t = t' then .ovr e (b + b') o t' :: l else .ovr e b o t :: addItem l (.ovr e' b' o' t')
  | y :: l, x => y :: addItem l x

end Sys2Proof.Machine
end

