-- ==== Sys2Proof/Machine/Jobs.lean ====
section
/-! DEFINITION. Work of an engine that completes after its issue: numeric records, bank loads, array passes and drains (R90 to R95, R175, R180, R185, R195, R210, R248). -/
namespace Sys2Proof.Machine

/-- Detail word 3 of most engine events: the logical engine, or 0x1FF (R242). -/
def Mod.engWord (m : Mod) (k : Nat) : Nat := m.logicalOf k

/-- Raises NUM_NONFINITE for the first record of a kernel with NaN or infinity counts, and NUM_COUNT_SAT for a written record whose counts are held (R95, R212). -/
def Mod.recordEvents (m : Mod) (k : Nat) (r : NumRec) (written : Bool) : Mod :=
  let e := m.eng k
  let m := if (r.nan ≠ 0 || r.inf ≠ 0) && !e.nonfinite then
      (m.setEng k { e with nonfinite := true }).emit (pgSlot k) Ev.numNonfinite (cap32 r.nan) (cap32 r.inf) r.opid (m.engWord k)
    else m
  if written && r.cntSat then m.emit (pgSlot k) Ev.numCountSat r.opid r.step 0 0 else m

/-- Writes a numeric record to a slot's engine store, unless it is suppressed (R90, R212). -/
def Mod.putRecord (m : Mod) (k : Nat) (off : Option Nat) (r : NumRec) : Mod :=
  let m := match off with
    | some o => m.wrEs k (pairsAt o r.bytes)
    | none => m
  m.recordEvents k r off.isSome

/-- The data of a piece has moved, so that it may be popped (R248). -/
def Store.ready (s : Store) (id : Nat) : Store :=
  { s with chains := s.chains.map (fun c => { c with pieces := c.pieces.map (fun (p : Piece) => if p.id = id then { p with ready := true } else p) }) }

/-- Marks a piece by its code 2 × id + 1 for the Tulle store, 2 × id for the Jersey stack. -/
def Mod.pieceReady (m : Mod) (code : Nat) : Mod :=
  if code % 2 = 1 then { m with ts := m.ts.ready (code / 2) } else { m with js := m.js.ready (code / 2) }

/-- Discards a piece whose data will not come; a page that no live piece occupies any more is free (R252). -/
def Store.drop (s : Store) (id : Nat) : Store :=
  let cut := fun (c : Chain) =>
    let c := { c with pieces := c.pieces.filter (·.id ≠ id) }
    match c.pieces.head? with
    | some p => { c with pages := c.pages.take (ceilDiv (p.pos + 64 + p.len) 65536) }
    | none => c
  { s with chains := (s.chains.map cut).filter (fun c => !c.pieces.isEmpty) }

/-- Discards the piece of a code. -/
def Mod.jtDrop (m : Mod) (code : Nat) : Mod :=
  if code % 2 = 1 then { m with ts := m.ts.drop (code / 2) } else { m with js := m.js.drop (code / 2) }

/-- Removes the first job for which `p` holds. -/
def dropJob (p : Job → Bool) : List Job → List Job
  | [] => []
  | j :: t => if p j then t else j :: dropJob p t

/-- A bank becomes ready (R174, R175, R195). -/
def Mod.doneMload (m : Mod) (k : Nat) (j : MloadJob) : Mod :=
  let e := m.eng k
  m.setEng k { e with sb := e.sb.set j.bank (j.data), jobs := dropJob (fun x => x = .mload j) e.jobs }

/-- A pass leaves the array and its chunks enter the tile (R176, R180). -/
def Mod.doneMma (m : Mod) (k : Nat) (j : MmaJob) : Mod :=
  let e := m.eng k
  let e := match e.getTile j.tile with
    | some t => e.setTile j.tile (some (mmaPass e.seed j (e.sb.getD j.bank {}) t))
    | none => e
  m.setEng k { e with jobs := dropJob (fun x => x = .mma j) e.jobs }

/-- A drain completes: its last row, scale bytes and record are written, its taps enter the long accumulator, NSTAT is set unless a later instruction sets it,
its pieces are ready (R90, R134, R190, R210, R248). -/
def Mod.doneDrain (m : Mod) (k : Nat) (j : DrainJob) : Mod :=
  let m := (m.wrEs k j.writes).putRecord k j.recOff j.record
  let e := m.eng k
  let e := match j.tap with
    | some a => e.setLa a (j.taps.foldl LongAcc.addVal (e.getLa a))
    | none => e
  let m := m.setEng k { e with nstat := if j.seq = e.nsSeq then j.record.nstat j.ovr j.seed else e.nstat, jobs := dropJob (fun x => x = .drain j) e.jobs }
  (m.each j.pieces Mod.pieceReady).bump (pgSlot k) 0x190 1

def Mod.doneJob (m : Mod) (k : Nat) : Job → Mod
  | .mload j => m.doneMload k j
  | .mma j => m.doneMma k j
  | .drain j => m.doneDrain k j

/-- Completes the jobs of a slot in the order of their issue (R196 step 2). -/
def Mod.finishJobs (m : Mod) (k : Nat) : Mod := m.each (m.eng k).jobs (fun m j => m.doneJob k j)

/-- The first array pass in flight, the first drain of a tile, the first load of a bank. -/
def firstMma (js : List Job) : Option MmaJob := js.findSome? (fun j => match j with | .mma x => some x | _ => none)
def drainOf (js : List Job) (t : Nat) : Option DrainJob := js.findSome? (fun j => match j with | .drain x => if x.tile = t then some x else none | _ => none)
def mloadOf (js : List Job) (b : Nat) : Option MloadJob := js.findSome? (fun j => match j with | .mload x => if x.bank = b then some x else none | _ => none)

/-- A transfer is in flight under some tag. -/
def Engine.moving (e : Engine) : Bool := e.tags.any (fun t => t.xfer.isSome)

/-- A drain that sets NSTAT is in flight (R211). -/
def Engine.draining (e : Engine) : Bool := e.jobs.any (fun j => match j with | .drain _ => true | _ => false)

/-- A drain with a norm tap to la is in flight (R195). -/
def Engine.tapping (e : Engine) (a : Nat) : Bool := e.jobs.any (fun j => match j with | .drain x => x.tap = some a | _ => false)

/-- An access to n bytes at an offset meets a granule that a drain in flight has still to write: the store is ordered under R169. -/
def Engine.overlaps (e : Engine) (off n : Nat) : Bool :=
  e.jobs.any (fun j => match j with
    | .drain d =>
      d.writes.any (fun w => decide (off / 64 ≤ w.1 / 64) && decide (w.1 / 64 ≤ (off + n - 1) / 64))
      || (match d.recOff with
        | some o => decide (off / 64 ≤ o / 64) && decide (o / 64 ≤ (off + n - 1) / 64)
        | none => false)
    | _ => false)

end Sys2Proof.Machine
end

