-- ==== Sys2Proof/Machine/Issue.lean ====
section
/-! DEFINITION. The issue of one engine instruction (R195, R202, R227, R230): fetch, the outcomes of an instruction, loop ends, branches, and taking a kernel fault with its report to dispatch (R196, R306, R434). -/
namespace Sys2Proof.Machine

/-- A kernel fault: the event code and detail words 0 to 2, detail word 3 where it is not the logical engine, the page where it is not the
engine's, the DMA tag, the fault address, whether the event has been raised already, and the instruction's index where it is not the pc. -/
structure KFault where
  code : Nat
  d0 : Nat := 0
  d1 : Nat := 0
  d2 : Nat := 0
  d3 : Option Nat := none
  page : Option Nat := none
  tag : Nat := 0
  addr : Option Nat := none
  said : Bool := false
  pc : Option Nat := none
  deriving DecidableEq, Repr, Inhabited

/-- What an instruction gives when it is offered for issue: it completes or starts its work and the next instruction follows; it completes as
though the instruction at an index had; it branches by an offset; the scoreboard holds it (R195); it issues and waits at its place (R224, R234,
R277); it is refused; it ends the kernel (R233). -/
inductive Res where
  | next (m : Mod)
  | fall (m : Mod) (idx : Nat)
  | jump (off : Int)
  | hold
  | wait (m : Mod)
  | fault (m : Mod) (f : KFault)
  | ended (m : Mod)
  deriving Inhabited

/-- What an instruction sees: its slot, logical engine, the engine's state as it issues (registers are read at issue, R221) and its word. -/
structure Iss where
  k : Nat
  n : Nat
  e : Engine
  w : W64
  deriving Inhabited

/-- Bank and PC as one word: bit 15 and bits 14 to 0, as in ENG_FAULT_PC. -/
def Engine.bankPc (e : Engine) : Nat := e.active * 32768 + e.pc

/-- ILLEGAL_INSTR for an instruction (R242). -/
def Iss.illegal (x : Iss) : KFault := { code := Ev.illegalInstr, d0 := x.w.toNat / 2 ^ 32, d1 := x.w.toNat % 2 ^ 32, d2 := x.e.bankPc }

/-- The word of an instruction memory bank (R236, R239). -/
def Engine.imWord (e : Engine) (bank idx : Nat) : W64 := spRead 0#64 (e.im.getD bank []) idx

/-- The key under which an uncorrectable instruction word is listed (R443): beyond every key of memory and stores. -/
def imKey (k bank idx : Nat) : Nat := 2 ^ 50 + k * 16384 + bank * 8192 + idx

/-! Loops and branches -/

/-- Loop ends at an index, from the innermost outwards (R230): the next index and the loops that stay active. Innermost first. -/
def loopEnd (idx : Nat) : List HwLoop → Nat × List HwLoop
  | [] => (idx + 1, [])
  | l :: t =>
    if l.last = idx then
      if l.lc + 1 < l.n then (l.first, { l with lc := l.lc + 1 } :: t) else loopEnd idx t
    else (idx + 1, l :: t)

/-- The instruction at an index has completed without a taken branch. -/
def Engine.fallFrom (e : Engine) (idx : Nat) : Engine :=
  { e with pc := (loopEnd idx e.loops).1, loops := (loopEnd idx e.loops).2 }

def Mod.fallFrom (m : Mod) (k idx : Nat) : Mod := m.setEng k ((m.eng k).fallFrom idx)

/-- Where a taken branch goes, or its refusal (R227, R232). -/
def Engine.branch (e : Engine) (off : Int) : Except KFault Nat :=
  let t : Int := e.pc + off
  if t < 0 ∨ t > 8191 then .error { code := Ev.imPcRange, d0 := e.pc, d1 := (t % 2 ^ 32).toNat, d2 := e.active }
  else
    match e.loops with
    | l :: _ =>
      if l.first ≤ t.toNat ∧ t.toNat ≤ l.last then .ok t.toNat
      else .error { code := Ev.loopEscape, d0 := e.pc, d1 := t.toNat, d2 := l.first + l.last * 65536 }
    | [] => .ok t.toNat

/-! The end of a kernel -/

/-- What a kernel's end does to the engine: tiles closed, banks emptied (R184), loops inactive (R233), and the engine idle. -/
def Engine.endKernel (e : Engine) : Engine :=
  { e with st := .idle, acc := List.replicate 8 none, sb := List.replicate 2 {}, loops := [], wait := .none, jobs := [], task := none,
           remotes := 0, remoteRefused := none }

/-- The answer that every unit must give: the first vector of R265. -/
def katRight : W64 := 0xFDDA0B4107E7CCC5#64

/-- One unit answers the known-answer test: 1 engine, 2 drain unit, 3 collective engine (R266). -/
def Mod.katAnswer (m : Mod) (unit n : Nat) (v : W64) : Mod :=
  if v = katRight then m
  else { m with kat := { m.kat with bad := true } }.emit pgRng Ev.rngKatFail unit (v.toNat % 2 ^ 32) (v.toNat / 2 ^ 32) n

/-- The test is over when no slot is left (R266). -/
def Mod.katClose (m : Mod) : Mod :=
  if m.kat.wait.isEmpty then { m with kat := { m.kat with done := true, pass := !m.kat.bad } } else m

/-- The engine and the drain unit of a slot answer. -/
def Mod.katSlot (m : Mod) (x : Nat × W64 × W64) : Mod :=
  (m.katAnswer 1 (m.logicalOf x.1) x.2.1).katAnswer 2 (m.logicalOf x.1) x.2.2

/-- A slot whose kernel has ended takes the test that waited for it (R266). -/
def Mod.katEnd (m : Mod) (k : Nat) : Mod :=
  match m.kat.wait.find? (fun x => x.1 = k) with
  | none => m
  | some x => ({ m with kat := { m.kat with wait := m.kat.wait.filter (fun y => y.1 ≠ k) } }.katSlot x).katClose

/-- A kernel of a slot ends: dispatch notes the end, the first suspect engine and the time (R194, R306, R307). Its remote increments in flight
no longer answer to it. -/
def Mod.kernelEnd (m : Mod) (k : Nat) : Mod :=
  let e := m.eng k
  let n := m.logicalOf k
  let m := match e.task with
    | some (q, idx) =>
      match m.task? q idx with
      | some t => m.setTask { t with ended := t.ended ++ [n], tEnd := m.time,
                                     suspect := if e.tainted then some (t.suspect.getD n) else t.suspect }
      | none => m
    | none => m
  let m := { m with rt := { m.rt with msgs := m.rt.msgs.map (fun (x : Msg) => if x.owner = Owner.evsig k then { x with owner := .none } else x) } }
  (m.setEng k e.endKernel).katEnd k

/-- A slot's part in an open panel-tree group has still to complete (R433). -/
def Mod.ptPending (m : Mod) (k : Nat) : Bool := m.ptGroups.any (fun g => g.parts.any (fun p => p.slot = k))

/-- One engine takes a kernel fault (R196): earlier work completes, the fault is recorded and reported, R184 applies. Dispatch takes the report at
once, so the engine leaves FAULT for IDLE in the same step (R197, R306). DEDUCED, log entry 10. -/
def Mod.faultOne (m : Mod) (k : Nat) (f : KFault) : Mod :=
  if (m.eng k).st ≠ .run then m
  else
    let m := m.finishJobs k
    let e := m.eng k
    let m := if f.said then m else m.emit (f.page.getD (pgSlot k)) f.code f.d0 f.d1 f.d2 (f.d3.getD (m.logicalOf k))
    let m := m.setEng k { e with faultCode := f.code, faultTag := f.tag, faultBank := e.active, faultPc := f.pc.getD e.pc, faultAddr := f.addr.getD e.faultAddr }
    ((m.bump (pgSlot k) 0x198 1).faultReport k f.code).kernelEnd k

/-- A kernel of the task in the panel has ended though it has not drained into the open group (R434). -/
def Mod.ptAbandoned (m : Mod) (g : PtGroup) : Bool :=
  match m.task? g.task.1 g.task.2 with
  | some t => t.ended.any (fun n => n / 48 = g.panel && !g.parts.any (fun p => p.eng = n))
  | none => true

/-- Refuses a panel-tree group: every engine whose MDRAIN belongs to it takes a kernel fault with PT_GROUP_BAD, which the panel's page reports
with the engine in detail word 3, and which its counter counts one by one (R434, R440, R441). Their drains write nothing, so that pieces already allocated
are discarded (R253). -/
def Mod.ptRefuse (m : Mod) (g : PtGroup) (reason : Nat) : Mod :=
  let m := { m with ptGroups := m.ptGroups.filter (fun h => h ≠ g) }.bump (pgPanel g.panel) 0x188 g.parts.length
  m.each g.parts (fun m p => (m.each p.pieces Mod.jtDrop).faultOne p.slot { code := Ev.ptGroupBad, d0 := g.panel, d1 := reason, d2 := g.tile, page := some (pgPanel g.panel), pc := some p.pc })

/-- Refuses every group that a kernel's end has abandoned; each refusal removes a group. -/
def Mod.ptSweep : Nat → Mod → Mod
  | 0, m => m
  | fuel + 1, m =>
    match m.ptGroups.find? m.ptAbandoned with
    | some g => Mod.ptSweep fuel (m.ptRefuse g 3)
    | none => m

/-- A kernel fault with what follows from it. -/
def Mod.kernelFault (m : Mod) (k : Nat) (f : KFault) : Mod :=
  let m := m.faultOne k f
  Mod.ptSweep m.ptGroups.length m

/-- A kernel's normal end with what follows from it (R233). -/
def Mod.kernelDone (m : Mod) (k : Nat) : Mod :=
  let m := m.kernelEnd k
  Mod.ptSweep m.ptGroups.length m

/-! Issue -/

/-- Applies an outcome. A refusal waits, like any instruction, for the earlier work that a panel-tree group still has to complete (R196 step 2, R433). -/
def Mod.settle (m : Mod) (k : Nat) : Res → Mod
  | .next m' => m'.fallFrom k (m.eng k).pc
  | .fall m' idx => m'.fallFrom k idx
  | .jump off =>
    match (m.eng k).branch off with
    | .ok t => m.setEng k { m.eng k with pc := t }
    | .error f => if m.ptPending k then m else m.kernelFault k f
  | .hold => m
  | .wait m' => m'
  | .fault m' f => if m.ptPending k then m else m'.kernelFault k f
  | .ended m' => m'.kernelDone k

/-- What fetching at the pc of the active bank gives: the decoded word, or the refusal of an index past the bank (R227), of an uncorrectable
word (R443), of a word that is 0 or whose opcode is not listed (R202, R239). -/
def Mod.fetch (m : Mod) (x : Iss) : Except (Mod × KFault) EngWord :=
  if x.e.pc > 8191 then .error (m, { code := Ev.imPcRange, d0 := x.e.pc, d1 := x.e.pc, d2 := x.e.active })
  else if m.poison.contains (imKey x.k x.e.active x.e.pc) then
    .error (((m.bump pgCal 0x198 1).emit pgCal Ev.sramUe 3 (65536 * x.e.active + 8 * x.e.pc) x.n (slotWord x.k)).transient x.k,
            { code := Ev.sramUe, said := true })
  else
    match EngWord.decode x.w with
    | some w => .ok w
    | none => .error (m, x.illegal)

/-- The view of slot k that its next instruction has. -/
def Mod.iss (m : Mod) (k n : Nat) : Iss :=
  let e := m.eng k
  { k, n, e, w := e.imWord e.active e.pc }

/-- Offers an instruction of logical engine n for issue. It is the engine's next one only when the word that is fetched is its word; when the
fetch itself is refused, the engine takes that kernel fault; an engine that runs no kernel, or waits, issues nothing. DESIGN CHOICE, log entry 1. -/
def Mod.issue (m : Mod) (n : Nat) (w : EngWord) (body : Mod → Iss → Res) : Mod :=
  match m.slotOf n with
  | none => m
  | some k =>
    if (m.eng k).st ≠ .run || (m.eng k).wait ≠ .none then m
    else
      match m.fetch (m.iss k n) with
      | .error (m', f) => m.settle k (.fault m' f)
      | .ok v => if v = w then m.settle k (body m (m.iss k n)) else m

end Sys2Proof.Machine
end

