-- ==== Sys2Proof/Machine/Operands.lean ====
section
/-! DEFINITION. The operand forms of an engine's instructions (R203 to R206): register kinds, the immediate, active lanes, engine-store accesses with their range, alignment, order and poison, and vector destinations. -/
namespace Sys2Proof.Machine

/-- The operand kinds of R203; `any` is a field that the instruction does not use. -/
inductive RKind where
  | s | v | p | la | t | any
  deriving DecidableEq, Repr

/-- The register numbers that a kind admits (R203). -/
def RKind.ok : RKind → BitVec 6 → Bool
  | .s, r => decide (r.toNat < 32)
  | .v, _ => true
  | .p, r => decide (r.toNat < 8)
  | .la, r => decide (r.toNat < 4)
  | .t, r => decide (r.toNat < 16)
  | .any, _ => true

/-- The register fields D, A, B and C of a Format R instruction name registers that exist (R203). -/
def regsOk (f : RFmt) (d a b c : RKind) : Bool := d.ok f.d && a.ok f.a && b.ok f.b && c.ok f.c

/-- With PEN = 0, P and PZ must be 0 (R205). -/
def penOk (f : RFmt) : Bool := f.pen = 1#1 || (f.p = 0#3 && f.pz = 0#1)

/-- Format I register fields name scalar registers. -/
def immOk (f : IFmt) : Bool := RKind.s.ok f.d && RKind.s.ok f.a

/-- IMM, sign-extended to 64 bits (R204). -/
def imm64 (f : IFmt) : W64 := f.imm.signExtend 64

/-- OFF, signed, in instructions (R204). -/
def offInt (f : BFmt) : Int := f.off.toInt

/-- Scalar register named by a field. -/
def Iss.s (x : Iss) (r : BitVec 6) : W64 := x.e.getS r.toNat

/-- Vector register named by a field. -/
def Iss.v (x : Iss) (r : BitVec 6) : List W32 := x.e.getV r.toNat

/-- Changes the engine of the slot. -/
def Mod.upd (m : Mod) (x : Iss) (g : Engine → Engine) : Mod := m.setEng x.k (g (m.eng x.k))

/-- Writes a scalar register; s0 discards (R166). -/
def Mod.putS (m : Mod) (x : Iss) (r : BitVec 6) (v : W64) : Mod := m.upd x (fun e => e.setS r.toNat v)

/-! Lanes -/

/-- A lane is active (R205). -/
def Iss.active (x : Iss) (f : RFmt) (i : Nat) : Bool := f.pen = 0#1 || (x.e.getP f.p.toNat).getLsbD i

/-- A vector destination: active lanes take their new values, inactive ones keep theirs, or become 0 when PZ = 1 (R205). -/
def Iss.lanes (x : Iss) (f : RFmt) (new : Nat → W32) : List W32 :=
  (x.v f.d).zipIdx.map (fun (old, i) => if x.active f i then new i else if f.pz = 1#1 then 0#32 else old)

def Mod.putV (m : Mod) (x : Iss) (f : RFmt) (new : Nat → W32) : Mod := m.upd x (fun e => e.setV f.d.toNat (x.lanes f new))

/-- A predicate destination under the same rule. -/
def Mod.putP (m : Mod) (x : Iss) (f : RFmt) (new : Nat → Bool) : Mod :=
  let old := x.e.getP f.d.toNat
  m.upd x (fun e => e.setP f.d.toNat (BitVec.ofBoolListLE ((List.range 128).map (fun i =>
    if x.active f i then new i else if f.pz = 1#1 then false else old.getLsbD i)) |>.setWidth 128))

/-- Lane i of a vector register. -/
def Iss.lane (x : Iss) (r : BitVec 6) (i : Nat) : W32 := (x.v r).getD i 0#32

/-! binary32 in registers -/

/-- The value of a binary32 word. -/
def b32 (w : W32) : Val := Fmt.b32.decode w.toNat

/-- The word of a binary32 value. -/
def b32w (v : Val) : W32 := BitVec.ofNat 32 (Fmt.b32.encode v)

/-- The binary32 value in bits 31 to 0 of a scalar register. -/
def Iss.f (x : Iss) (r : BitVec 6) : Val := Fmt.b32.decode ((x.s r).toNat % 2 ^ 32)

/-- A binary32 result in a scalar register, bits 63 to 32 zero. -/
def b32s (v : Val) : W64 := BitVec.ofNat 64 (Fmt.b32.encode v)

/-! The engine store (R206) -/

/-- ESTORE_RANGE before ESTORE_ALIGN for an access of n bytes at an offset. DEDUCED order, log entry 17. -/
def Iss.span (x : Iss) (off n align : Nat) : Option KFault :=
  if off + n > 2 ^ 22 then some { code := Ev.estoreRange, d0 := off % 2 ^ 32, d1 := off / 2 ^ 32, d2 := x.e.pc }
  else if off % align ≠ 0 then some { code := Ev.estoreAlign, d0 := off, d1 := align, d2 := x.e.pc }
  else none

/-- The refusals of a list of accesses, the first that fails. -/
def Iss.spans (x : Iss) (l : List (Nat × Nat × Nat)) : Option KFault := l.findSome? (fun a => x.span a.1 a.2.1 a.2.2)

/-- The first uncorrectable word among the bytes that an instruction reads (R443). -/
def Mod.badRead (m : Mod) (k : Nat) (l : List (Nat × Nat)) : Option Nat := l.findSome? (fun a => m.firstPoison (esAddr k a.1) a.2)

/-- The engine-store regions, offset and length, that an engine's own part of an open panel-tree group may still read (false) or write (true)
when its descriptor governs the group (R169, R433). -/
def ptRegions (p : PtPart) : List (Bool × Nat × Nat) :=
  let d := DrainDesc.ofBytes p.desc
  let w := if p.pair.isSome then 256 else 128
  [(true, d.out, 128 * d.ostride * 64 + w * 4), (true, d.scale, 128 * d.scstride + w), (true, d.recOff, if d.recNone then 0 else 32),
   (true, d.saveAddr, if d.save = 0 || d.savePush then 0 else 128 * w * 2 + 512), (false, d.smoothOff, if d.smooth then w else 0),
   (false, d.gaddr, if d.gpop then 0 else 128 * w * 4), (false, d.gscale, 128 * w), (false, d.dq, 384)]
  ++ (match p.tile.pre with
    | some q => [(false, q.off, 128 * q.stride * 64 + 512)]
    | none => [])

/-- An access must wait for an earlier one that overlaps it in a granule (R169): of a drain in flight, or of the engine's part in an open
panel-tree group. -/
def Mod.storeBusy (m : Mod) (x : Iss) (off n : Nat) (isWrite : Bool) : Bool :=
  x.e.overlaps off n
  || m.ptGroups.any (fun g => g.parts.any (fun p => p.slot = x.k
      && (ptRegions p).any (fun r => (isWrite || r.1) && decide (0 < r.2.2) && decide (r.2.1 / 64 ≤ (off + n - 1) / 64)
                                     && decide (off / 64 ≤ (r.2.1 + r.2.2 - 1) / 64))))

/-- The reads and writes of an instruction: offset, bytes, alignment, and whether it writes. They are checked in order; a range that an earlier
access of the engine still needs holds the instruction; an uncorrectable word refuses it (R169, R206, R443). -/
structure Acc where
  off : Nat
  n : Nat
  align : Nat
  wr : Bool := false
  deriving DecidableEq, Repr, Inhabited

def Mod.using (m : Mod) (x : Iss) (l : List Acc) (body : Res) : Res :=
  match x.spans (l.map (fun a => (a.off, a.n, a.align))) with
  | some f => .fault m f
  | none =>
    if l.any (fun a => decide (0 < a.n) && m.storeBusy x a.off a.n a.wr) then .hold
    else
      match m.badRead x.k ((l.filter (fun a => !a.wr)).map (fun a => (a.off, a.n))) with
      | some a => .fault (m.ueRead a) { code := Ev.sramUe, said := true }
      | none => body

/-- Bytes of the slot's engine store. -/
def Mod.esBytes (m : Mod) (x : Iss) (off n : Nat) : List Nat := m.bytesAt (esAddr x.k off) n

/-- Little-endian number in the slot's engine store (R10). -/
def Mod.esNum (m : Mod) (x : Iss) (off n : Nat) : Nat := ofLe (m.esBytes x off n)

/-- Writes bytes to the slot's engine store. -/
def Mod.putEs (m : Mod) (x : Iss) (off : Nat) (bs : List Nat) : Mod := m.wr (esAddr x.k off) bs

/-- Writes pairs of offset and byte; bytes whose words are wholly written lose their poison. -/
def Mod.putEsPairs (m : Mod) (x : Iss) (ws : List (Nat × Nat)) : Mod := m.wrEs x.k ws

/-! Numeric context -/

/-- An instruction that sets NSTAT is still at work: a drain, or a part of a panel-tree group (R211, R433). DEDUCED, log entry 83. -/
def Mod.statPending (m : Mod) (x : Iss) : Bool := x.e.draining || m.ptPending x.k

/-- The draw key of an operation: job seed and CTX (R75, R207). -/
def Iss.key (x : Iss) : DrawKey := { seed := x.e.seed, opid := x.e.ctx.opid, step := x.e.ctx.step }

/-- RNG_NOT_READY: a draw is needed while the random generator page is disabled (R263). -/
def Mod.rngRefuse (m : Mod) (x : Iss) : Option KFault :=
  if m.on pgRng then none else some { code := Ev.rngNotReady, d0 := x.w.toNat / 2 ^ 56, d1 := x.e.ctx.opid, d2 := x.e.pc }

/-- The first of several refusals, or the effect. -/
def orElse (m : Mod) (l : List (Option KFault)) (body : Res) : Res :=
  match l.findSome? id with
  | some f => .fault m f
  | none => body

/-- A refusal when a condition holds. -/
def refuseIf (c : Bool) (f : KFault) : Option KFault := if c then some f else none

end Sys2Proof.Machine
end

