-- ==== Sys2Proof/Machine/Jersey.lean ====
section
/-! DEFINITION. The Jersey stack and the Tulle store (R243 to R257): pages, chains, pushing, removing and keeping pops. `t` is true for the Tulle store. -/
namespace Sys2Proof.Machine

def Mod.jt (m : Mod) (t : Bool) : Store := if t then m.ts else m.js

def Mod.setJt (m : Mod) (t : Bool) (s : Store) : Mod := if t then { m with ts := s } else { m with js := s }

/-- The base and the size of a region in 64 KiB pages (R258). -/
def Mod.jtBase (m : Mod) (t : Bool) : Nat := if t then m.reg64 pgEp 0x80C 0x810 else m.reg64 pgEp 0x800 0x804
def Mod.jtPages (m : Mod) (t : Bool) : Nat := m.fld pgEp (if t then 0x814 else 0x808) 0 24

/-- The first data page: 9 pages of chain table, then the page list (R244). -/
def Mod.jtFirst (m : Mod) (t : Bool) : Nat := 9 + ceilDiv (m.jtPages t) 16384

/-- The data pages that chains hold. -/
def Store.held (s : Store) : List Nat := (s.chains.map (·.pages)).flatten

/-- JS_FREE and TS_FREE: 0 with the epoch controller page disabled, or with no pages (R258). -/
def Mod.jtFree (m : Mod) (t : Bool) : Nat :=
  if m.on pgEp then m.jtPages t - m.jtFirst t - (m.jt t).held.length else 0

/-- Free data pages, the lowest first. DESIGN CHOICE of which, log entry 11. -/
def Mod.jtTake (m : Mod) (t : Bool) (n : Nat) : List Nat :=
  let held := (m.jt t).held
  (((List.range (held.length + n)).map (· + m.jtFirst t)).filter (fun p => !held.contains p)).take n

/-- The chain of a logical engine and MB mod 64 (R246). -/
def Store.chain (s : Store) (n mb64 : Nat) : Chain :=
  (s.chains.find? (fun c => c.eng = n && c.mb64 = mb64)).getD ⟨n, mb64, 0, [], []⟩

/-- Puts a chain in; an empty chain is not kept. -/
def Store.put (s : Store) (c : Chain) : Store :=
  let rest := s.chains.filter (fun d => !(d.eng = c.eng && d.mb64 = c.mb64))
  { s with chains := if c.pieces.isEmpty then rest else c :: rest }

/-- MB of a tag word (R245). -/
def tagMb (tag : Nat) : Nat := bitsOf tag 8 12

def Store.chainOf (s : Store) (n tag : Nat) : Chain := s.chain n (tagMb tag % 64)

/-- The chain that a pop finds: an empty one while the epoch controller page is disabled (R258). -/
def Mod.popChain (m : Mod) (t : Bool) (n tag : Nat) : Chain :=
  if m.on pgEp then (m.jt t).chainOf n tag else ⟨n, tagMb tag % 64, 0, [], []⟩

/-- The chain position after the newest piece. -/
def Chain.end' (c : Chain) : Nat :=
  match c.pieces.head? with
  | some p => p.pos + 64 + p.len
  | none => 0

/-- The local address of a chain position (R247). -/
def Mod.jtAddr (m : Mod) (t : Bool) (c : Chain) (pos : Nat) : Nat := m.jtBase t + 65536 * c.pages.getD (pos / 65536) 0 + pos % 65536

/-- Writes bytes from a chain position on, page by page. -/
def Mod.jtWrite (m : Mod) (t : Bool) (c : Chain) : Nat → Nat → List Nat → Mod
  | 0, _, _ => m
  | fuel + 1, pos, bs =>
    if bs.isEmpty then m
    else
      let n := 65536 - pos % 65536
      Mod.jtWrite (m.wr (m.jtAddr t c pos) (bs.take n)) t c fuel (pos + n) (bs.drop n)

/-- Reads bytes from a chain position on. -/
def Mod.jtRead (m : Mod) (t : Bool) (c : Chain) (pos n : Nat) : List Nat := (List.range n).map (fun i => m.rd (m.jtAddr t c (pos + i)))

/-- The first poisoned address of a chain range, page by page. -/
def Mod.jtPoison (m : Mod) (t : Bool) (c : Chain) : Nat → Nat → Nat → Option Nat
  | 0, _, _ => none
  | fuel + 1, pos, n =>
    if n = 0 then none
    else
      let k := min n (65536 - pos % 65536)
      match m.firstPoison (m.jtAddr t c pos) k with
      | some a => some a
      | none => Mod.jtPoison m t c fuel (pos + k) (n - k)

/-- The 64 bytes of a piece header (R247). -/
def Piece.header (p : Piece) (prev : Nat) : List Nat :=
  leBytes 4 p.tag ++ leBytes 4 p.len ++ [p.kind, b2n p.fallback + 2 * b2n p.byDrain, 0, 0] ++ leBytes 4 p.step ++ leBytes 8 prev
  ++ List.replicate 40 0

/-- TAG of the top piece, 0 for none. -/
def Chain.topTag (c : Chain) : Nat := ((c.pieces.head?).map (·.tag)).getD 0

/-- JERSEY_ORDER (R281). -/
def jOrder (c : Chain) (tag reason : Nat) : KFault := { code := Ev.jerseyOrder, d0 := tag, d1 := reason, d2 := c.topTag }

/-- JERSEY_FULL or TULLE_FULL (R281). The bytes needed are those of header and data for a push, and of the data for a pop of a piece in the other store
(R255): DESIGN CHOICE, log entry 99. -/
def Mod.jFull (m : Mod) (t : Bool) (tag need : Nat) : KFault :=
  { code := if t then Ev.tulleFull else Ev.jerseyFull, d0 := tag, d1 := need, d2 := m.jtFree t }

/-- Data pages that a piece of `len` bytes takes beyond those its chain holds. -/
def Chain.needs (c : Chain) (len : Nat) : Nat := ceilDiv (c.end' + 64 + len) 65536 - c.pages.length

/-- There is room for a piece (R253). -/
def Mod.jtRoom (m : Mod) (t : Bool) (n tag len : Nat) : Bool :=
  let c := (m.jt t).chainOf n tag
  m.on pgEp && decide (m.jtPages t ≠ 0) && decide (c.needs len ≤ m.jtFree t)

/-- The refusal of a tag that a push meets in its chain (R245, R246). -/
def Mod.jtTagBad (m : Mod) (t : Bool) (n tag : Nat) : Option KFault :=
  let c := (m.jt t).chainOf n tag
  if tag % 16 ≠ 0 then some (jOrder c tag 6)
  else if !c.pieces.isEmpty && c.mb ≠ tagMb tag then some (jOrder c tag 3)
  else none

/-- Allocates a piece whose tag and room have been accepted, with its header; answers its identity (R247, R248). DEDUCED, log entry 69. -/
def Mod.jtPush (m : Mod) (t : Bool) (n step tag len kind : Nat) (fallback byDrain : Bool) : Mod × Nat :=
  let s := m.jt t
  let c := s.chainOf n tag
  let c : Chain := { c with mb := tagMb tag, pages := c.pages ++ m.jtTake t (c.needs len) }
  let prev := match c.pieces.head? with
    | some p => m.jtAddr t c p.pos
    | none => 0
  let p : Piece := { id := s.next, tag, len, kind, fallback, byDrain, step, pos := c.end', ready := false }
  let m := m.jtWrite t c 2 p.pos (p.header prev)
  let m := m.setJt t { s.put { c with pieces := p :: c.pieces } with next := s.next + 1 }
  (m.setJt t { m.jt t with minFree := min (m.jt t).minFree (m.jtFree t) }, s.next)

/-- Writes the data of a live piece; a piece that has been discarded takes none (R257). -/
def Mod.jtData (m : Mod) (code : Nat) (bs : List Nat) : Mod :=
  let t := decide (code % 2 = 1)
  match (m.jt t).chains.find? (fun c => c.pieces.any (fun p => p.id = code / 2)) with
  | some c =>
    match c.pieces.find? (fun p => p.id = code / 2) with
    | some p => m.jtWrite t c (bs.length / 65536 + 2) (p.pos + 64) bs
    | none => m
  | none => m

/-- What a pop gives: it waits for the push's data, is refused, or answers the piece's data with the first poisoned address in it, and
whether the piece is a fallback. -/
inductive Popped where
  | hold
  | bad (f : KFault)
  | ok (m : Mod) (data : List Nat) (ue : Option Nat) (fallback : Bool)

/-- A piece of the Tulle chain carries the tag with FALLBACK set (R255). -/
def Mod.fellBack (m : Mod) (n tag : Nat) (topOnly : Bool) : Bool :=
  let ps := (m.popChain true n tag).pieces
  (if topOnly then ps.take 1 else ps).any (fun p => p.tag = tag && p.fallback)

/-- Reads a piece and, when it is the top one and the pop removes it, frees it with the pages it alone held (R250 to R252). -/
def Mod.jtTakePiece (m : Mod) (t : Bool) (c : Chain) (p : Piece) (keep : Bool) : Popped :=
  if !p.ready then .hold
  else
    let data := m.jtRead t c (p.pos + 64) p.len
    let ue := m.jtPoison t c (p.len / 65536 + 2) (p.pos + 64) p.len
    if keep then .ok m data ue p.fallback
    else
      let c2 : Chain := { c with pieces := c.pieces.tail }
      let c2 := { c2 with pages := c2.pages.take (ceilDiv c2.end' 65536) }
      .ok (m.setJt t ((m.jt t).put c2)) data ue p.fallback

/-- A removing pop (R250, R255): tag, length and, where named, kind must be those of the top piece. -/
def Mod.jtPop (m : Mod) (t : Bool) (n tag len : Nat) (kind : Option Nat) : Popped :=
  let c := m.popChain t n tag
  if tag % 16 ≠ 0 then .bad (jOrder c tag 6)
  else
    match c.pieces.head? with
    | none => if !t && m.fellBack n tag true then .bad (m.jFull false tag len) else .bad (jOrder c tag 1)
    | some p =>
      if p.tag ≠ tag then
        if !t && m.fellBack n tag true then .bad (m.jFull false tag len)
        else .bad (jOrder c tag (if c.mb = tagMb tag then 2 else 3))
      else if p.len ≠ len then .bad (jOrder c tag 4)
      else if kind.any (fun k => k ≠ p.kind) then .bad (jOrder c tag 5)
      else m.jtTakePiece t c p false

/-- A keeping pop (R251): the newest live piece of the chain that carries the tag. -/
def Mod.jtKeep (m : Mod) (t : Bool) (n tag len : Nat) : Popped :=
  let c := m.popChain t n tag
  if tag % 16 ≠ 0 then .bad (jOrder c tag 6)
  else
    match c.pieces.find? (fun p => p.tag = tag) with
    | none =>
      if !t && m.fellBack n tag false then .bad (m.jFull false tag len)
      else .bad (jOrder c tag (if c.pieces.isEmpty then 1 else 2))
    | some p => if p.len ≠ len then .bad (jOrder c tag 4) else m.jtTakePiece t c p true

/-- A drain descriptor that pushes its side output, or pops its operand (R219). -/
def descPushes (b : List Nat) : Bool := bitAt (field b 22 1) 2 && field b 22 1 % 4 ≠ 0
def descPops (b : List Nat) : Bool := bitAt (field b 23 1) 7 && decide (9 ≤ bitsOf (field b 10 1) 0 5)

/-- The engine's part in an open panel-tree group pops a piece once the group completes, or may then push one that it has not allocated at its issue;
later pushes and pops of the engine follow it in program order (R248). -/
def Mod.ptStacks (m : Mod) (x : Iss) : Bool :=
  m.ptGroups.any (fun g => g.parts.any (fun p => p.slot = x.k && (descPops p.desc || (descPushes p.desc && p.push.isNone))))

/-- Both stores are emptied (R257). -/
def Mod.jtEmpty (m : Mod) : Mod := { m with js := { m.js with chains := [] }, ts := { m.ts with chains := [] } }

/-- The live pieces of a store. -/
def Store.live (s : Store) : Nat := (s.chains.map (fun c => c.pieces.length)).sum

end Sys2Proof.Machine
end

