-- ==== Sys2Proof/Machine/LogOps.lean ====
section
/-! DEFINITION. The log unit's operations (R474 to R487, R500): the cursor block, records, the ring, the mirror, verification, and the items of a step. -/
namespace Sys2Proof.Machine

/-! Places -/

/-- LG_BASE, LG_RECS, and the address of a record in the ring (R474). -/
def Mod.lgBase (m : Mod) : Nat := m.reg64 pgLog 0x104 0x108
def Mod.lgRecs (m : Mod) : Nat := m.fld pgLog 0x10C 0 23
def Mod.ringAddr (m : Mod) (i : Nat) : Nat := m.lgBase + 0x10000 + 64 * (i % m.lgRecs)

/-- The log unit page is enabled and not being disabled (R477). -/
def Mod.logOn (m : Mod) : Bool := m.on pgLog && !(m.page pgLog).busy

/-- Granule g of the cursor block as the log unit reads it. An uncorrectable one is counted and reported like any other (R325, R326); the bytes that the
log unit then takes are free values. DESIGN CHOICE, log entry 89. -/
def Mod.cursorRead (m : Mod) (g : Nat) : Mod × List Nat :=
  match m.load .snapLog (m.lgBase + 64 * g) 64 with
  | (m, .ok b) => (m, b)
  | (m, _) => ({ m with free := m.free + 64 }, (List.range 64).map (fun i => (Config.freeValue (m.free + i)).toNat % 256))

/-- A field of a granule read. -/
def fieldAt (b : List Nat) (off n : Nat) : Nat := ofLe ((b.drop off).take n)

/-! Checks over tables -/

/-- LMAP_CRC (R482). -/
def Mod.lmapCrc (m : Mod) : Nat := crc32c ((m.lmap.map (fun e => leBytes 4 e.word)).flatten)

/-- The CRC-32C of a shard map of 16-bit entries (R405, R482). -/
def smapCrc (l : List Nat) : Nat := crc32c ((l.map (leBytes 2)).flatten)

/-- CTX_CRC over the enabled contexts in ascending number (R482). -/
def Mod.ctxCrc (m : Mod) : Nat :=
  crc32c (((m.ce.ctxs.filter (fun e => e.2.state ≠ .disabled)).map (fun e =>
    [e.1, e.2.axes] ++ leBytes 4 e.2.shards ++ leBytes 4 (smapCrc e.2.smap))).flatten)

/-! Records -/

/-- The 64 bytes of a record: header, body of 44 bytes filled with zeros, CRC (R481). DEDUCED, log entry 73. -/
def Mod.recBytes (m : Mod) (idx kind flags : Nat) (body : List Nat) : List Nat :=
  let h := leBytes 4 idx ++ [kind, flags + 64 * b2n m.lg.rerun + 128 * b2n m.lg.snap] ++ leBytes 2 m.lg.attempt ++ leBytes 4 m.ep.step
    ++ leBytes 2 m.modid ++ [0, 0] ++ (body ++ List.replicate 44 0).take 44
  h ++ leBytes 4 (crc32c h)

/-- The number of records the mirror buffer holds (R487). -/
def mirrorCap : Nat := 256

/-- The host ring has room for another record (R487, R578). -/
def Mod.mirrorRoom (m : Mod) : Bool :=
  m.outbound && decide ((m.lg.midx + 2 ^ 32 - m.reg pgLog 0x11C) % 2 ^ 32 < 2 ^ m.fld pgLog 0x118 0 5)

/-- Writes one record to the host ring. -/
def Mod.mirrorWrite (m : Mod) (i : Nat) (b : List Nat) : Mod :=
  m.send (.hostWrite (m.reg64 pgLog 0x110 0x114 + 64 * (i % 2 ^ m.fld pgLog 0x118 0 5)) b)

/-- A record reaches the mirror: written while the ring has room, else held (R487). More than 256 records are held when the decision of one
step writes them all: DESIGN CHOICE, log entry 23. -/
def Mod.mirror (m : Mod) (b : List Nat) : Mod :=
  if !m.flag pgLog 0x100 0 then m
  else if m.lg.mbuf.isEmpty && m.mirrorRoom then
    let i := m.lg.midx
    { m.mirrorWrite i b with lg := { m.lg with midx := (i + 1) % 2 ^ 32, mirrored := m.lg.mirrored ++ [(i, b)] } }
  else
    let m := { m with lg := { m.lg with mbuf := m.lg.mbuf ++ [b] } }
    if m.lg.mbuf.length ≥ mirrorCap && !m.lg.stall then
      { m with lg := { m.lg with stall := true } }.emit pgLog Ev.logMirrorStall m.lg.midx (m.reg pgLog 0x11C) m.ep.step 0
    else m

/-- Held records go out while the host ring has room, and the stall ends when the buffer has room again (R487). -/
def Mod.mirrorDrain : Nat → Mod → Mod
  | 0, m => m
  | fuel + 1, m =>
    match m.lg.mbuf with
    | [] => { m with lg := { m.lg with stall := false } }
    | b :: t =>
      if m.mirrorRoom then
        let i := m.lg.midx
        Mod.mirrorDrain fuel { m.mirrorWrite i b with lg := { m.lg with midx := (i + 1) % 2 ^ 32, mirrored := m.lg.mirrored ++ [(i, b)], mbuf := t } }
      else { m with lg := { m.lg with stall := m.lg.stall && decide (m.lg.mbuf.length ≥ mirrorCap) } }

def Mod.mirrorFlush (m : Mod) : Mod := Mod.mirrorDrain (m.lg.mbuf.length + 1) m

/-- The first byte in which a record differs from the reference, among those that are compared (R500). -/
def firstDiff (a b : List Nat) : Option Nat :=
  ([4, 5] ++ (List.range 52).map (· + 8)).find? (fun i =>
    let x := a.getD i 0
    let y := b.getD i 0
    if i = 5 then decide (x % 64 ≠ y % 64)
    else if a.getD 4 0 = 1 && 48 ≤ i && i ≤ 55 then false
    else decide (x ≠ y))

/-- Compares a record written at an index with the reference ring, whose record must pass its CRC; the contents of LMAP and RESTORE records are not
compared (R500). -/
def Mod.verify (m : Mod) (idx : Nat) (b : List Nat) : Mod :=
  let kind := b.getD 4 0
  if !m.flag pgLog 0x100 1 then m
  else
    let (m, r) := m.load .snapLog (m.reg64 pgLog 0x120 0x124 + 64 * (idx % m.lgRecs)) 64
    let bad := match r with
      | .ok c => (if kind = 6 || kind = 8 then none else firstDiff b c).or (if crc32c (c.take 60) ≠ ofLe (c.drop 60) then some 60 else none)
      | _ => some 60
    match bad with
    | none => m
    | some byte =>
      ({ m with lg := { m.lg with diverged := true } }.bump pgLog 0x184 1).emit pgLog Ev.replayDiverge idx kind byte (ofLe ((b.drop 8).take 4))

/-- Writes a record to the ring at an index, and to the mirror (R476, R485, R487, R500). -/
def Mod.ringWrite (m : Mod) (idx kind flags : Nat) (body : List Nat) : Mod :=
  let b := m.recBytes idx kind flags body
  ((m.put .snapLog (m.ringAddr idx) b).bump pgLog 0x180 1 |>.mirror b).verify idx b

/-- Writes a record at LG_NEXT and advances it. -/
def Mod.logNext (m : Mod) (kind flags : Nat) (body : List Nat) : Mod :=
  let i := m.lg.next
  let m := m.ringWrite i kind flags body
  { m with lg := { m.lg with next := (i + 1) % 2 ^ 32 } }

/-! The items of a step -/

/-- Kind, entry, engine or context, and OPID by which items are ordered (R483). -/
def LogItem.key : LogItem → Nat × Nat × Nat
  | .ovr e _ o _ => (3, e, o)
  | .seed e _ o => (4, e, o)
  | .lmap n _ _ => (6, n, 0)
  | .context c _ _ _ _ => (7, c, 0)

def keyLe (a b : Nat × Nat × Nat) : Bool :=
  decide (a.1 < b.1) || (decide (a.1 = b.1) && (decide (a.2.1 < b.2.1) || (decide (a.2.1 = b.2.1) && decide (a.2.2 ≤ b.2.2))))

/-- Inserts an item before the first that comes after it. -/
def insertItem (x : LogItem) : List LogItem → List LogItem
  | [] => [x]
  | y :: t => if keyLe y.key x.key then y :: insertItem x t else x :: y :: t

/-- Overrides of different tasks that share an entry and an OPID are one item (R483). -/
def mergeItems (l : List LogItem) : List LogItem :=
  l.foldl (fun acc x => match x with
    | .ovr e b o _ => addItem acc (.ovr e b o none)
    | y => acc ++ [y]) []

/-- The bytes of an item in its record's body (R482). -/
def LogItem.bytes : LogItem → List Nat
  | .ovr e b o _ => leBytes 2 e ++ leBytes 4 (cap32 b) ++ leBytes 4 o
  | .seed e r o => leBytes 2 e ++ [r, 0] ++ leBytes 4 o
  | .lmap n old new => leBytes 2 n ++ [0, 0] ++ leBytes 4 old ++ leBytes 4 new
  | .context c a l g crc => [c, a, 0, 0] ++ leBytes 4 l ++ leBytes 4 g ++ leBytes 4 crc

/-- Items of one kind that share a record: four of OVERRIDE and SEED, one of the others. -/
def perRecord (kind : Nat) : Nat := if kind = 3 || kind = 4 then 4 else 1

/-- Sorted items as records of kind, FLAGS and body (R482, R483). -/
def itemRecords : Nat → List LogItem → List (Nat × Nat × List Nat)
  | 0, _ => []
  | _, [] => []
  | fuel + 1, x :: t =>
    let kind := x.key.1
    let g := x :: (t.takeWhile (fun y => decide (y.key.1 = kind))).take (perRecord kind - 1)
    (kind, if kind = 3 || kind = 4 then g.length else 0, (g.map LogItem.bytes).flatten) :: itemRecords fuel (t.drop (g.length - 1))

/-- The records of the buffer at the decision, with the CLIP record behind them (R483, R485, R482). -/
def Mod.stepRecords (m : Mod) : List (Nat × Nat × List Nat) :=
  let items := (mergeItems m.lg.items).foldl (fun l x => insertItem x l) []
  itemRecords items.length items ++
    (match m.lg.clip with
     | some c => [(2, b2n c.nf, leBytes 4 c.c ++ leBytes 4 c.n ++ [c.mode, b2n c.redo])]
     | none => [])

/-- The body of an OUTCOME record (R482). -/
def Mod.outcomeBody (m : Mod) (o : Nat) : List Nat := [o, 0, 0, 0] ++ leBytes 4 m.ep.shSlice.toNat ++ leBytes 4 m.rngEpoch

/-- The items that the buffer holds: overrides of different tasks that share an entry and an OPID count once (R483). -/
def LogUnit.held (l : LogUnit) : Nat := (mergeItems l.items).length

/-- Passes an item to the input log while a step is open; beyond 4,096 items it is written at once (R483). -/
def Mod.logItem (m : Mod) (x : LogItem) : Mod :=
  if !m.logOn || !m.ep.isOpen then m
  else
    let m := m.bump pgLog 0x18C 1
    if m.lg.held < itemCap || itemMerges m.lg.items x then { m with lg := { m.lg with items := addItem m.lg.items x } }
    else
      let kind := x.key.1
      let m := m.logNext kind (if kind = 3 || kind = 4 then 1 else 0) x.bytes
      if m.lg.orderLost then m
      else { m with lg := { m.lg with orderLost := true } }.emit pgLog Ev.logOrderLost m.ep.step m.lg.held 0 0

/-- The log unit drops the overrides that a task passed to it (R484). -/
def Mod.dropOverrides (m : Mod) (tasks : List (Nat × Nat)) : Mod :=
  { m with lg := { m.lg with items := m.lg.items.filter (fun x => match x with
      | .ovr _ _ _ (some t) => !tasks.contains t
      | _ => true) } }

/-- At COMMIT: the buffered records, CLIP and OUTCOME at consecutive indices (R485). -/
def Mod.logCommit (m : Mod) : Mod :=
  if !m.logOn then m
  else
    let m := m.each m.stepRecords (fun m r => m.logNext r.1 r.2.1 r.2.2)
    let m := m.logNext 5 0 (m.outcomeBody 1)
    { m with lg := { m.lg with items := [], clip := none } }

/-- At a ROLLBACK decision: the buffered records and CLIP go to the mirror alone (R486), with the indices they would have had. -/
def Mod.logAbandon (m : Mod) : Mod :=
  if !m.logOn then m
  else
    let m := m.each m.stepRecords.zipIdx (fun m r =>
      let m := m.mirror (m.recBytes ((m.lg.next + r.2) % 2 ^ 32) r.1.1 r.1.2.1 r.1.2.2)
      if m.flag pgLog 0x100 0 then m.bump pgLog 0x180 1 else m)
    { m with lg := { m.lg with items := [], clip := none } }

/-- After the restore: LG_NEXT is the restored LOG_NEXT, and the rollback's OUTCOME record goes there without advancing it (R486). -/
def Mod.logRolledBack (m : Mod) : Mod :=
  if !m.logOn then m
  else
    let (m, g) := m.cursorRead 0
    let m := { m with lg := { m.lg with next := fieldAt g 8 4 } }
    m.ringWrite m.lg.next 5 0 (m.outcomeBody 2)

/-- SKIP's OUTCOME record (R486). -/
def Mod.logSkip (m : Mod) : Mod := if !m.logOn then m else m.logNext 5 0 (m.outcomeBody 3)

/-- The log unit's part of a seal of step s (R476, R480). `ep.step` is s already, and RERUN and SNAP are set. -/
def Mod.logSeal (m : Mod) (rerun snap : Bool) : Mod :=
  let s := m.ep.step
  let lg := m.lg
  let (m, g) := m.cursorRead 1
  let skip := lg.prevSkipped && fieldAt g 0 4 = (s + 2 ^ 32 - 1) % 2 ^ 32
  let adv := if m.flag pgLog 0x100 4 then m.reg64 pgLog 0x128 0x12C else 0
  let g := if skip then leBytes 4 s ++ (g.drop 4).take 4 ++ leBytes 8 (fieldAt g 8 8 + adv) ++ g.drop 16 else g
  let m := { m with lg := { lg with rerun, snap, attempt := if rerun then min (lg.attempt + 1) 0xFFFF else 0, orderLost := false, prevSkipped := false,
                                    skipData := skip || (rerun && lg.skipData) } }
  let m := if skip then m.put .snapLog (m.lgBase + 64) g else m
  let m := m.put .snapLog m.lgBase (leBytes 4 s ++ leBytes 4 m.rngEpoch ++ leBytes 4 m.lg.next ++ [0, 0, 0, 0] ++ leBytes 8 m.rngSeed.toNat
    ++ List.replicate 40 0)
  m.logNext 1 (b2n m.lg.skipData) (leBytes 8 m.rngSeed.toNat ++ leBytes 4 m.rngEpoch ++ leBytes 4 (fieldAt g 0 4) ++ leBytes 8 (fieldAt g 8 8)
    ++ leBytes 4 m.ctxCrc ++ [0, 0, 0, 0] ++ leBytes 4 m.lmapCrc ++ leBytes 2 m.activeEng ++ [m.nStacks])

end Sys2Proof.Machine
end

