-- ==== Sys2Proof/Machine/Control.lean ====
section
/-! DEFINITION. The control and status instructions (R207, R211, R225 to R235, R241): branches, loops, the end of a kernel, context, step health, features, time. -/
namespace Sys2Proof.Machine

/-- The reserved bits of Format B are zero. -/
def resOk (f : BFmt) : Bool := f.r1 = 0#2 && f.r2 = 0#6

/-- The conditions of R225; none for a reserved code. -/
def condHolds (c : Nat) (a b : W64) : Option Bool :=
  let x := Fmt.b32.decode (a.toNat % 2 ^ 32)
  let y := Fmt.b32.decode (b.toNat % 2 ^ 32)
  let nan := x.isNan || y.isNan
  match c with
  | 0x0 => some (a == b)
  | 0x1 => some (a != b)
  | 0x2 => some (a.slt b)
  | 0x3 => some (!a.slt b)
  | 0x4 => some (a.ult b)
  | 0x5 => some (!a.ult b)
  | 0x6 => some ((a &&& b) != 0#64)
  | 0x7 => some ((a &&& b) == 0#64)
  | 0x8 => some (!nan && x.cmp y == .eq)
  | 0x9 => some (Val.lt x y)
  | 0xA => some (Val.le x y)
  | 0xB => some nan
  | _ => none

/-- BR -/
def execBr (n : Nat) (f : BFmt) (s : State) : Host.Outcome State Fault Refusal :=
  run (fun m => m.issue n (.b 0x38#8 f) (fun m x =>
    if resOk f && RKind.s.ok f.a && RKind.s.ok f.b then
      match condHolds f.cond.toNat (x.s f.a) (x.s f.b) with
      | some true => .jump (offInt f)
      | some false => .next m
      | none => .fault m x.illegal
    else .fault m x.illegal)) s

/-- BRF: NSTAT & MASK ≠ 0 with COND 0, = 0 with COND 1 (R226) -/
def execBrf (n : Nat) (f : BFmt) (s : State) : Host.Outcome State Fault Refusal :=
  run (fun m => m.issue n (.b 0x39#8 f) (fun m x =>
    if resOk f && f.a = 0#6 && f.b = 0#6 && f.cond.toNat < 2 then
      if m.statPending x then .hold
      else if ((x.e.nstat &&& f.mask) != 0#16) == (f.cond == 0#4) then .jump (offInt f)
      else .next m
    else .fault m x.illegal)) s

/-- JMP (R221: COND, A and B must be 0) -/
def execJmp (n : Nat) (f : BFmt) (s : State) : Host.Outcome State Fault Refusal :=
  run (fun m => m.issue n (.b 0x3A#8 f) (fun m x =>
    if resOk f && f.a = 0#6 && f.b = 0#6 && f.cond = 0#4 then .jump (offInt f) else .fault m x.illegal)) s

/-- LOOP's effect (R228). DEDUCED, log entry 37. -/
def loopRes (m : Mod) (x : Iss) (count : Nat) (len : Int) : Res :=
  let a := x.e.pc
  let last := a + len.toNat
  if len ≤ 0 then .fault m x.illegal
  else if last > 8191 then .fault m { code := Ev.imPcRange, d0 := a, d1 := last, d2 := x.e.active }
  else if x.e.loops.length ≥ 4 then .fault m { code := Ev.loopDepth, d0 := a, d1 := 4 }
  else
    match x.e.loops.head? with
    | some o =>
      if o.last < last then .fault m { code := Ev.loopNestBad, d0 := a, d1 := last, d2 := o.last }
      else if count = 0 then .fall m last
      else .next (m.upd x (fun e => { e with loops := ⟨a + 1, last, count, 0⟩ :: e.loops }))
    | none =>
      if count = 0 then .fall m last
      else .next (m.upd x (fun e => { e with loops := ⟨a + 1, last, count, 0⟩ :: e.loops }))

/-- LOOP -/
def execLoop (n : Nat) (f : BFmt) (s : State) : Host.Outcome State Fault Refusal :=
  run (fun m => m.issue n (.b 0x3B#8 f) (fun m x =>
    if resOk f && RKind.s.ok f.a then loopRes m x ((x.s f.a).toNat % 2 ^ 32) (offInt f) else .fault m x.illegal)) s

/-- LOOP.BRK (R231) -/
def execLoopBrk (n : Nat) (f : BFmt) (s : State) : Host.Outcome State Fault Refusal :=
  run (fun m => m.issue n (.b 0x3C#8 f) (fun m x =>
    if resOk f && RKind.s.ok f.a && f.cond.toNat < 3 then
      match x.e.loops with
      | [] => .fault m { code := Ev.loopState, d0 := x.e.pc }
      | l :: t =>
        let leave := if f.cond = 0#4 then true else (x.s f.a != 0#64) == (f.cond == 1#4)
        if leave then .fall (m.upd x (fun e => { e with loops := t })) l.last else .next m
    else .fault m x.illegal)) s

/-- RDLC: the iteration index at depth FUNC[1:0], 0 the outermost (R229) -/
def execRdlc (n : Nat) (f : RFmt) (s : State) : Host.Outcome State Fault Refusal :=
  run (fun m => m.issue n (.r 0x3D#8 f) (fun m x =>
    if regsOk f .s .any .any .any then
      let v : W64 := match x.e.loops.reverse[f.func.toNat % 4]? with
        | some l => BitVec.ofNat 64 l.lc
        | none => BitVec.allOnes 64
      .next (m.putS x f.d v)
    else .fault m x.illegal)) s

/-- ENG_DMA_FAULT for a tag whose fault bit is set (R171, R223, R233). -/
def Engine.tagFault (e : Engine) (t : Nat) : KFault :=
  let a := (e.getTag t).addr
  { code := Ev.engDmaFault, d0 := t, d1 := a % 2 ^ 32, d2 := a / 2 ^ 32, tag := t, addr := some a }

/-- The lowest tag with its fault bit set. -/
def Engine.faultyTag (e : Engine) : Option Nat := (List.range 16).find? (fun t => (e.getTag t).fault)

/-- Work that KEND, FENCE and EVSIG wait for: earlier instructions with their records, panel-tree parts, transfers (R224, R233, R433). -/
def Mod.workPending (m : Mod) (x : Iss) : Bool := !x.e.jobs.isEmpty || m.ptPending x.k || x.e.moving

/-- The queue of an engine's task, or 0xFFFF (R319). -/
def Engine.queueNo (e : Engine) : Nat := (e.task.map (·.1)).getD 0xFFFF

/-- KEND (R233, R313) -/
def execKend (n : Nat) (f : RFmt) (s : State) : Host.Outcome State Fault Refusal :=
  run (fun m => m.issue n (.r 0x3E#8 f) (fun m x =>
    if m.workPending x || x.e.remotes ≠ 0 then .hold
    else
      match x.e.faultyTag with
      | some t => .fault m (x.e.tagFault t)
      | none =>
        match x.e.remoteRefused with
        | some (c, mo) => .fault m { code := Ev.evRemoteRefused, d0 := c, d1 := mo, d2 := x.n, d3 := some x.e.queueNo, page := some pgDsp }
        | none => .ended m)) s

/-- NOP -/
def execNop (n : Nat) (f : RFmt) (s : State) : Host.Outcome State Fault Refusal :=
  run (fun m => m.issue n (.r 0x3F#8 f) (fun m _ => .next m)) s

/-- The good reserves left in a panel (R241). -/
def Mod.reserves (m : Mod) (p : Nat) : Nat := (((m.dep.slots.drop (52 * p)).take 52).filter (fun x => x.st = .reserve)).length

/-- The feature registers (R241). -/
def Mod.feature (m : Mod) (i : Nat) : Nat :=
  match i with
  | 0 => 0x0000000000080100
  | 1 => 0x0080020800800080
  | 2 => 0x0000100420084080
  | 3 => 0x0000C00000001000
  | 4 => 0x0000040200010000
  | 5 => 0x000000007F3F0FFF
  | 6 => 0x00000000007F03FF
  | 7 => ((List.range 6).map (fun p => m.reserves p * 2 ^ (8 * p))).sum
  | 8 => m.activeEng + m.nStacks * 2 ^ 16 + 6 * 2 ^ 24
  | _ => 0

/-- RDFEAT: IMM[11:0]; IMM[43:12] is reserved -/
def execRdfeat (n : Nat) (f : IFmt) (s : State) : Host.Outcome State Fault Refusal :=
  run (fun m => m.issue n (.i 0x40#8 f) (fun m x =>
    if RKind.s.ok f.d && f.imm.toNat < 4096 then .next (m.putS x f.d (BitVec.ofNat 64 (m.feature f.imm.toNat))) else .fault m x.illegal)) s

/-- RDNS (R211) -/
def execRdns (n : Nat) (f : RFmt) (s : State) : Host.Outcome State Fault Refusal :=
  run (fun m => m.issue n (.r 0x41#8 f) (fun m x =>
    if regsOk f .s .any .any .any then
      if m.statPending x then .hold else .next (m.putS x f.d (x.e.nstat.setWidth 64))
    else .fault m x.illegal)) s

/-- SETCTX (R207, R603) -/
def execSetctx (n : Nat) (f : RFmt) (s : State) : Host.Outcome State Fault Refusal :=
  run (fun m => m.issue n (.r 0x42#8 f) (fun m x =>
    if regsOk f .any .s .s .any && (x.s f.b).toNat < 2 ^ 44 then
      .next (m.upd x (fun e => { e with ctx := { opid := (x.s f.a).toNat / 2 ^ 32, step := (x.s f.a).toNat % 2 ^ 32, ebase := (x.s f.b).toNat } }))
    else .fault m x.illegal)) s

/-- RDCTX: OPID:STEP, or EBASE when FUNC[0] = 1 -/
def execRdctx (n : Nat) (f : RFmt) (s : State) : Host.Outcome State Fault Refusal :=
  run (fun m => m.issue n (.r 0x43#8 f) (fun m x =>
    if regsOk f .s .any .any .any then
      let c := x.e.ctx
      .next (m.putS x f.d (BitVec.ofNat 64 (if f.func.getLsbD 0 then c.ebase else c.opid * 2 ^ 32 + c.step)))
    else .fault m x.illegal)) s

/-- The module's step-health word of a step. The module holds the word of EP_STEP alone, so the word of another step is a free value: DESIGN
CHOICE, log entry 18. -/
def Mod.healthWord (m : Mod) (step : Nat) : Mod × Nat :=
  if m.ep.step = step then (m, m.ep.sh.toNat)
  else
    let (v, m) := m.fresh
    (m, v.toNat % 2 ^ 32)

/-- The vote of a step has completed: its word is published, or a later step has been sealed. DEDUCED, log entry 18. -/
def Mod.voteOver (m : Mod) (step : Nat) : Bool := decide (step < m.ep.step) || (m.ep.published && m.ep.step = step)

/-- The slice-wide word of a step whose vote is over: the module holds that of EP_STEP alone, so an earlier one is a free value. DESIGN CHOICE, log
entry 18. -/
def Mod.sliceWord (m : Mod) (step : Nat) : Mod × Nat :=
  if m.ep.step = step then (m, m.ep.shSlice.toNat)
  else
    let (v, m) := m.fresh
    (m, v.toNat % 2 ^ 32)

/-- SHRD (R234) -/
def execShrd (n : Nat) (f : RFmt) (s : State) : Host.Outcome State Fault Refusal :=
  run (fun m => m.issue n (.r 0x44#8 f) (fun m x =>
    if regsOk f .s .any .any .any then
      let step := x.e.ctx.step
      if f.func.getLsbD 0 then
        if m.voteOver step then
          let (m, v) := m.sliceWord step
          .next (m.putS x f.d (BitVec.ofNat 64 (2 ^ 32 + v)))
        else .wait (m.upd x (fun e => { e with wait := .sh f.d.toNat step none }))
      else
        let (m, v) := m.healthWord step
        .next (m.putS x f.d (BitVec.ofNat 64 v))
    else .fault m x.illegal)) s

/-- Ends a wait: the register takes its value and the next instruction follows. -/
def Mod.endWait (m : Mod) (k d : Nat) (v : W64) : Mod :=
  let e := m.eng k
  (m.setEng k ({ e with wait := .none }.setS d v)).fallFrom k e.pc

/-- SHRD_RETURN: a waiting SHRD returns when the slice-wide word of its step is published (R234) -/
def execShrdReturn (n : Nat) (s : State) : Host.Outcome State Fault Refusal :=
  run (fun m =>
    match m.slotOf n with
    | none => m
    | some k =>
      match (m.eng k).wait with
      | .sh d _ (some w) => m.endWait k d (BitVec.ofNat 64 (2 ^ 32 + w))
      | _ => m) s

/-- The watchdog ends the waiting SHRD of a slot: the module's word with bit 32 zero, and SH_WAIT_EXPIRED (R234). -/
def Mod.shExpire (m : Mod) (k : Nat) : Mod :=
  match (m.eng k).wait with
  | .sh d step none =>
    let (m, v) := m.healthWord step
    let m := m.emit (pgSlot k) Ev.shWaitExpired step (m.eng k).pc 0 (m.logicalOf k)
    m.endWait k d (BitVec.ofNat 64 v)
  | _ => m

/-- SHSET (R235) -/
def execShset (n : Nat) (f : RFmt) (s : State) : Host.Outcome State Fault Refusal :=
  run (fun m => m.issue n (.r 0x45#8 f) (fun m x =>
    if regsOk f .any .s .any .any then
      let step := x.e.ctx.step
      let bits := (x.s f.a).setWidth 32
      if m.voteOver step then .next (m.emit (pgSlot x.k) Ev.shLate step bits.toNat x.e.pc x.n)
      else .next (m.health step bits)
    else .fault m x.illegal)) s

/-- RDTIME -/
def execRdtime (n : Nat) (f : RFmt) (s : State) : Host.Outcome State Fault Refusal :=
  run (fun m => m.issue n (.r 0x46#8 f) (fun m x =>
    if regsOk f .s .any .any .any then .next (m.putS x f.d (BitVec.ofNat 64 m.time)) else .fault m x.illegal)) s

end Sys2Proof.Machine
end

