-- ==== Sys2Proof/Machine/Router.lean ====
section
/-! DEFINITION. The ports (R359 to R364, R371, R385), the routing of packets and their arrival (R365, R366, R371, R372, R377 to R379, R396). -/
namespace Sys2Proof.Machine

/-! Ports -/

/-- Changes one port. -/
def Mod.onPort (m : Mod) (i : Nat) (f : Port → Port) : Mod := m.setPort i (f (m.port i))

/-- The identity frame of this module through a port (R360). -/
def Mod.ident (m : Mod) (i : Nat) : IdFrame :=
  { modid := m.modid, port := i, verMin := 1, verMax := 1, fwdOnly := m.fwdOnly, quar := m.rt.quar, inc := m.rt.inc,
    machine := m.reg pgRouter 0x108, serial := Config.serial }

/-- The 32 bytes of an identity frame (R360). -/
def identBytes (f : IdFrame) : List Nat :=
  leBytes 2 f.modid ++ [f.port % 32, f.verMin % 256, f.verMax % 256, b2n f.fwdOnly + 2 * b2n f.quar] ++ leBytes 2 f.inc ++ leBytes 4 f.machine
  ++ leBytes 8 f.serial.toNat ++ List.replicate 12 0

/-- Port i sends its identity frame (R360). -/
def Mod.sendIdent (m : Mod) (i : Nat) : Mod := m.send (.ident i (identBytes (m.ident i)))

/-- Sends the identity frame on every port that exchanges frames, when the module's own identity has changed (R360). -/
def Mod.identAll (m : Mod) : Mod :=
  m.each (List.range 19) (fun m i =>
    match (m.port i).st with
    | .ident => m.sendIdent i
    | .up => m.sendIdent i
    | .misplaced => m.sendIdent i
    | _ => m)

/-- The identity frames follow a change of the module's own identity since `old` (R360). -/
def Mod.identSince (m old : Mod) : Mod := if m.ident 0 = old.ident 0 then m else m.identAll

/-- RT_MASK of a port as one number of 256 bits. -/
def Mod.ownMask (m : Mod) (i : Nat) : Nat :=
  (List.range 8).foldl (fun a w => a + m.reg pgRouter (0x400 + 32 * i + 4 * w) * 2 ^ (32 * w)) 0

/-- A port in DOWN holds nothing of its link (R359). -/
def Port.fall (p : Port) : Port := { p with st := .down, swapped := false, ver := 0, holdIn := false, peerMask := none }

/-- A port in IDENT, UP or MISPLACED enters DOWN with FAB_PORT_DOWN; cause 1 heartbeat, 2 lanes (R359, R363, R404). PT_DOWN_CNT counts entries from
UP. DEDUCED, log entry 66. -/
def Mod.portDown (m : Mod) (i cause : Nat) : Mod :=
  let p := m.port i
  let m := m.setPort i p.fall
  let m := if p.st = .up then m.bump (pgPort i) 0x198 1 else m
  m.emit (pgPort i) Ev.fabPortDown cause (m.reg (pgPort i) 0x198) p.peerMod i

/-- Compares the two masks of a link and raises FAB_MASK_SKEW where they differ (R371). -/
def Mod.maskSkew (m : Mod) (i : Nat) : Mod :=
  match (m.port i).peerMask with
  | none => m
  | some peer =>
    let own := m.ownMask i
    match (List.range 256).find? (fun s => bitAt own s ≠ bitAt peer s) with
    | some s => m.emit (pgPort i) Ev.fabMaskSkew s (b2n (bitAt own s)) (m.port i).peerMod i
    | none => m

/-- A port reaches UP: it sends its mask, and the first one after a router reset begins quarantine (R361, R371, R394). -/
def Mod.portUp (m : Mod) (i : Nat) (swapped : Bool) (f : IdFrame) : Mod :=
  let m := m.onPort i (fun p => { p with st := .up, swapped := swapped, ver := 1, verNone := false })
  let m := if swapped then m.emit (pgPort i) Ev.fabPortSwapped f.modid f.port 0 i else m.emit (pgPort i) Ev.fabPortUp f.modid f.port 1 i
  let m := (m.send (.mask i (m.ownMask i))).maskSkew i
  if m.rt.quarWait then
    let m := { m with rt := { m.rt with quarWait := false, quar := true } }
    (m.emit pgRouter Ev.fabQuarantine m.rt.inc (m.reg pgRouter 0x160) 0 0xFF).identAll
  else m

/-- The tests of R361 on the peer's frame. -/
def Mod.identTest (m : Mod) (i : Nat) (f : IdFrame) : Mod :=
  let peer := f.modid
  if Nat.min f.verMax 1 < max f.verMin 1 then
    let said := (m.port i).verNone
    let m := m.onPort i (fun p => { p.fall with verNone := true })
    if said then m else m.emit (pgPort i) Ev.fabVerNone 0x0101 (f.verMin + 256 * f.verMax) peer i
  else if f.machine ≠ m.reg pgRouter 0x108 || peer ≠ m.expected i
      || (f.port ≠ expectedPort i && bundlePartner (expectedPort i) ≠ some f.port) then
    (m.onPort i (fun p => { p with st := .misplaced })).emit (pgPort i) Ev.misplaced peer f.port (m.expected i) i
  else m.portUp i (f.port ≠ expectedPort i) f

/-- PORT_TRAINING_START: a DOWN port starts to train (R359) -/
def execPortTrainingStart (i : Nat) (s : State) : Host.Outcome State Fault Refusal :=
  run (fun m => if (m.port i).st = .down && decide (i < 19) && !m.rt.inReset then m.onPort i (fun p => { p with st := .train, lanes := 0 }) else m) s

/-- LANES_LOCKED: a port in training enters IDENT and sends its identity frame (R359, R360) -/
def execLanesLocked (i : Nat) (s : State) : Host.Outcome State Fault Refusal :=
  run (fun m =>
    if (m.port i).st = .train && decide (i < 19) then
      let m := m.onPort i (fun p => { p with st := .ident, lanes := 15, frame := none })
      m.sendIdent i
    else m) s

/-- TRAINING_FAILURE (R359) -/
def execTrainingFailure (i : Nat) (s : State) : Host.Outcome State Fault Refusal :=
  run (fun m => if (m.port i).st = .train && decide (i < 19) then m.onPort i (fun p => { p with st := .down }) else m) s

/-- Keeps what a peer's frame says of it. -/
def Port.hear (p : Port) (f : IdFrame) : Port :=
  { p with frame := some f, peerMod := f.modid, peerPort := f.port, peerInc := f.inc, peerSerial := f.serial }

/-- IDENTITY_FRAME: in IDENT the frame is tested; a MISPLACED port returns to IDENT on a changed frame, where it sends its own; an UP port takes the
frame in (R359 to R361) -/
def execIdentityFrame (i : Nat) (f : IdFrame) (s : State) : Host.Outcome State Fault Refusal :=
  run (fun m =>
    if 19 ≤ i then m
    else
      match (m.port i).st with
      | .ident => (m.onPort i (·.hear f)).identTest i f
      | .misplaced =>
        if (m.port i).frame = some f then m
        else
          let m := m.onPort i (fun p => { p.hear f with st := .ident })
          (m.sendIdent i).identTest i f
      | .up => m.onPort i (·.hear f)
      | _ => m) s

/-- A port sends heartbeats (R359). -/
def Port.beats (p : Port) : Bool := p.st = .ident || p.st = .up || p.st = .misplaced

/-- HEARTBEAT_SEND (R363) -/
def execHeartbeatSend (i : Nat) (s : State) : Host.Outcome State Fault Refusal :=
  run (fun m => if (m.port i).beats && decide (i < 19) then m.send (.heartbeat i) else m) s

/-- HEARTBEAT_FRAME: a valid heartbeat changes no state of its own: HEARTBEAT_LOSS tells of four windows without one (R363) -/
def execHeartbeatFrame (_ : Nat) (s : State) : Host.Outcome State Fault Refusal := run (fun m => m) s

/-- HEARTBEAT_LOSS: four windows without a valid heartbeat are counted and the port enters DOWN (R363) -/
def execHeartbeatLoss (i : Nat) (s : State) : Host.Outcome State Fault Refusal :=
  run (fun m => if (m.port i).beats && decide (i < 19) then (m.bump (pgPort i) 0x190 4).portDown i 1 else m) s

/-- LANE_LOCK_LOSS: a port runs only while all four lanes hold lock (R358, R359) -/
def execLaneLockLoss (i lane : Nat) (s : State) : Host.Outcome State Fault Refusal :=
  run (fun m =>
    if ((m.port i).beats || (m.port i).st = .train) && decide (i < 19) && decide (lane < 4) then
      let m := m.onPort i (fun p => { p with lanes := setBits p.lanes lane 1 0 })
      if (m.port i).st = .train then m else m.portDown i 2
    else m) s

/-- MASK_FRAME: the link uses the AND of both masks (R371) -/
def execMaskFrame (i : Nat) (mask : BitVec 256) (s : State) : Host.Outcome State Fault Refusal :=
  run (fun m =>
    if ((m.port i).st = .up || (m.port i).st = .ident) && decide (i < 19) then
      (m.onPort i (fun p => { p with peerMask := some mask.toNat })).maskSkew i
    else m) s

/-- TRANSIT_HOLD: the peer asserts or releases transit-hold on a link (R385) -/
def execTransitHold (i : Nat) (on : Bool) (s : State) : Host.Outcome State Fault Refusal :=
  run (fun m => if (m.port i).st = .up && decide (i < 19) then m.onPort i (fun p => { p with holdIn := on }) else m) s

/-! Arrival -/

/-- The router forwards, injects and ejects (R396, R399). -/
def Mod.rtOn (m : Mod) : Bool := m.on pgRouter && !m.rt.inReset

/-- Bytes of a packet. -/
def Packet.size (p : Packet) : Nat := 64 + p.payload.length

/-- An input buffer of 4,352 bytes, four places of one maximum packet each, that are all taken (R380). DEDUCED, log entry 82. -/
def Port.full (p : Port) : Bool := decide (4 ≤ p.buf.length)

/-- PACKET_ARRIVAL: a packet is checked and buffered, or discarded with its count and event (R366, R372, R396) -/
def execPacketArrival (i : Nat) (hdr payload : List Byte) (s : State) : Host.Outcome State Fault Refusal :=
  run (fun m =>
    if 19 ≤ i || (m.port i).st ≠ .up then m
    else
      let h := hdr.map (·.toNat)
      let d := payload.map (·.toNat)
      let m := m.bump (pgPort i) 0x184 1
      if !m.rtOn then
        let m := m.bump pgRouter 0x1B0 1
        if m.rt.dropSaid then m
        else { m with rt := { m.rt with dropSaid := true } }.emit pgRouter Ev.fabDropDisabled (m.reg pgRouter 0x1B0) 0 0 i
      else if h.getD 60 0 ≠ hparOf h || headerBad h d then
        (m.bump (pgPort i) 0x194 1).emit pgRouter Ev.fabHdrParity (h.getD 60 0) (hparOf h) 0 i
      else
        let p := Packet.ofBytes h d
        if !m.maskBit i p.slice then (m.bump pgRouter 0x1A8 1).emit pgRouter Ev.fabSliceRefused p.slice p.src p.dst i
        else if (m.port i).full then m
        else m.onPort i (fun q => { q with buf := q.buf ++ [{ pkt := p, since := m.time }] })) s

/-! Productive ports -/

/-- A packet is native at this module (R377). -/
def Mod.native (m : Mod) (p : Packet) : Bool := p.slice = 0 || p.slice = m.sliceId

/-- The two ports of a bundle (R356). -/
def bundle (a : Axis) (plus : Bool) : List Nat :=
  let b := (match a with | .x => 7 | .y => 11 | .z => 15) + if plus then 0 else 2
  [b, b + 1]

/-- The productive ports along one axis with the remaining distance, before ports and masks are looked at (R377). `own` is the own box where the
packet measures inside it. -/
def Mod.waysOn (m : Mod) (own : Option Box) (t : Coord) (a : Axis) : List (Nat × Nat) :=
  let here := m.here.at a
  let dest := t.at a
  if here = dest then []
  else
    let ring := fun (len f : Nat) =>
      (if 2 * f ≤ len then (bundle a true).map (fun i => (i, f)) else []) ++ if len ≤ 2 * f then (bundle a false).map (fun i => (i, len - f)) else []
    match own with
    | some b =>
      let sp := b.at a
      if sp.ring then
        ring sp.len ((spanPos sp (m.ringLen a) dest + sp.len - spanPos sp (m.ringLen a) here) % max sp.len 1)
      else (bundle a (decide (here < dest))).map (fun i => (i, if here < dest then dest - here else here - dest))
    | none => ring (m.ringLen a) ((dest + m.ringLen a - here) % max (m.ringLen a) 1)

/-- The productive ports of a packet with the distance that remains on the port's axis, before ports and masks are looked at: a native packet of
the job slice measures inside the own box when its target lies there; Gauze goes in dimension order (R377, R384). -/
def Mod.ways (m : Mod) (p : Packet) : List (Nat × Nat) :=
  let t := coordOf (if p.phase then p.dst else p.inter)
  let gauze := !m.native p
  let own := match m.ownBox with
    | some b => if !gauze && p.slice ≠ 0 && m.inBox b t then some b else none
    | none => none
  let w := if m.here.w = t.w then [] else [((t.w + 8 - m.here.w) % 8 - 1, 1)]
  let axes := [m.waysOn own t .x, m.waysOn own t .y, m.waysOn own t .z, w]
  if gauze then ((axes.filter (fun l => !l.isEmpty)).head?).getD [] else axes.flatten

/-- A packet may be sent through a port: UP, its slice in the link's mask, and no transit-hold against TC7 (R364, R372, R385). -/
def Mod.allows (m : Mod) (p : Packet) (i : Nat) : Bool :=
  (m.port i).st = .up && m.maskBit i p.slice && !(p.tc = 7 && (m.port i).holdIn)

/-- PHASE becomes 1 at the intermediate, or when no productive port is UP (R378). -/
def Mod.rephase (m : Mod) (p : Packet) : Packet :=
  if !p.phase && (p.inter = m.modid || !((m.ways p).any (fun w => (m.port w.1).st = .up))) then { p with phase := true } else p

/-- The port on the axis with the largest remaining distance, the lower index first (R379). -/
def bestWay : List (Nat × Nat) → Option Nat
  | [] => none
  | (i, d) :: l => some (l.foldl (fun (b : Nat × Nat) w => if b.2 < w.2 || (b.2 = w.2 && w.1 < b.1) then w else b) (i, d)).1

end Sys2Proof.Machine
end

