-- ==== Sys2Proof/Machine/Suspect.lean ====
section
/-! DEFINITION. Suspect events, classifications and their repeats (R448 to R456), and the fences they ask for (R458). -/
namespace Sys2Proof.Machine

/-- CHK_MODE in force: while the Calico page is disabled suspect events act as under REPORT (R449, R471). -/
def Mod.chkMode (m : Mod) : Nat := if m.on pgCal then m.fld pgCal 0x104 0 2 else 0

/-- The key of a drain (R448). -/
def tileKey (eng tile : Nat) (t : Tile) : Key := ⟨eng, tile, t.opid, t.step, t.ebase⟩

/-- Asks for a fence of a slot at its next kernel boundary (R458). -/
def Mod.askFence (m : Mod) (k cause : Nat) : Mod :=
  let s := m.slot k
  if s.st = .fenced || s.st = .fused || s.fencePend.isSome then m else m.setSlot k { s with fencePend := some cause }

/-- A suspect event of a drain: kind 1 checksum, 2 tile parity, 3 bank or buffer parity. The kernel is marked suspect, and a task's event waits for
the task to complete (R448, R450). On a LENT slot it ends the rotation at the next boundary (R469). -/
def Mod.suspectEvent (m : Mod) (k tile : Nat) (t : Tile) (kind : Nat) : Mod :=
  let n := m.logicalOf k
  let e := m.eng k
  let m := (m.setEng k { e with tainted := true, suspect := e.suspect || decide (kind = 1) }).bump pgCal 0x180 1
  let m := m.emit pgCal Ev.depSuspect (n * 65536 + tile) t.opid t.step (slotWord k)
  let m := if (m.slot k).st = .lent then m.setSlot k { m.slot k with rotEnd := true } else m
  match (m.eng k).task with
  | some (q, idx) => { m with dep := { m.dep with suspects := m.dep.suspects ++ [⟨q, idx, tileKey n tile t, kind, k⟩] } }
  | none => m

/-- Closes classification i. -/
def Mod.closeCls (m : Mod) (i : Nat) : Mod := { m with dep := { m.dep with cls := m.dep.cls.set i none } }

/-- The index of the open classification of a key. -/
def Mod.clsOf (m : Mod) (key : Key) : Option Nat := m.dep.cls.findIdx? (fun c => (c.map (·.key)) = some key)

/-- A drain that is no suspect event, and whose key matches an open classification, is a repeat that passes (R452). -/
def Mod.repeatPasses (m : Mod) (k : Nat) (key : Key) : Mod :=
  match m.clsOf key with
  | none => m
  | some i =>
    match m.dep.cls.getD i none with
    | none => m
    | some c =>
      let m := m.closeCls i
      if c.stage = 1 then
        let m := (m.transient c.slot).bump pgCal 0x184 1
        m.emit pgCal Ev.depTransient key.eng key.opid (m.transientCount c.slot) (slotWord c.slot)
      else
        ((m.bump pgCal 0x188 1).emit pgCal Ev.depPermanent key.eng key.opid (k % 52) (slotWord c.slot)).askFence c.slot 1

/-- D1 of a drained tile: a mismatch is a suspect event and names its first row or column: tile × 65536 + line, columns from 128
up (R193, R194, R201; DESIGN CHOICE of packing, log entry 99). With
ENG_CTRL.CHK_EN = 0 nothing is compared. A drain that is no suspect event, neither here nor by parity, passes as a repeat (R448, R452).
`upset` names a line that an upset in the array has moved. DESIGN CHOICE, log entry 7. -/
def Mod.checkTile (m : Mod) (k tile : Nat) (t : Tile) (upset : Option Nat) : Mod :=
  let key := tileKey (m.logicalOf k) tile t
  match (if m.flag (pgSlot k) 0x104 0 then t.mismatch (m.fld pgCal 0x104 2 3) upset else none) with
  | some line =>
    ((m.bump (pgSlot k) 0x194 1).emit (pgSlot k) Ev.arrayCheckMismatch (tile * 65536 + line) t.opid t.step (m.logicalOf k)).suspectEvent k tile t 1
  | none => if m.dep.suspects.any (fun x => x.key = key && (m.eng k).task = some (x.q, x.idx)) then m else m.repeatPasses k key

end Sys2Proof.Machine
end

