-- ==== Sys2Proof/Machine/Depend.lean ====
section
/-! DEFINITION. Fencing and substitution (R453 to R460), the Calico test with its rotations (R464 to R469), the commands of DEP_CMD (R471), and forward-only mode (R446, R462). -/
namespace Sys2Proof.Machine

/-! Slots -/

/-- The index of a slot that is not fused off. -/
def Mod.slotIdx (m : Mod) (p s : Nat) : Option Nat :=
  let k := 52 * p + s
  if p < 6 && s < 52 && m.fuse.getD k .off ≠ .off then some k else none

/-- The slot is at a kernel boundary: it runs no kernel, none is placed or reserved for it, and nothing of the last one is in flight. -/
def Mod.atBoundary (m : Mod) (k : Nat) : Bool :=
  let e := m.eng k
  e.task.isNone && e.st ≠ .run && !m.ptPending k && !e.moving && (m.reservedFor (m.logicalOf k)).isNone

/-- The lowest RESERVE slot of a panel (R459). -/
def Mod.reserveOf (m : Mod) (p : Nat) : Option Nat := ((List.range 52).map (52 * p + ·)).find? (fun k => (m.slot k).st = .reserve)

/-- A reserve of the panel is LENT or under test, so that one will be released (R459). -/
def Mod.reserveComes (m : Mod) (p : Nat) : Bool :=
  ((List.range 52).map (52 * p + ·)).any (fun k => (m.slot k).st = .lent || ((m.slot k).st = .test && m.logicalOf k = 0x1FF))

/-- Changes an MG_LMAP entry: ENG_SUBST, and an item of the input log (R24, R48, R465, R482). DEDUCED, log entry 77. -/
def Mod.relmap (m : Mod) (n : Nat) (e : LmapEntry) : Mod :=
  let old := (m.lmap.getD n {}).word
  let m := { m with lmap := m.lmap.set n e }
  (m.emit pgCal Ev.engSubst n old e.word (slotWord (52 * (n / 48) + e.slot))).logItem (.lmap n old e.word)

/-- The slot assigned to a logical engine at shipment (R47). -/
def Mod.homeSlot (m : Mod) (n : Nat) : Nat :=
  (((List.range 52).map (52 * (n / 48) + ·)).filter (fun k => m.fuse.getD k .off = .active)).getD (n % 48) 312

/-- Slot k backs logical engine n from now on; SUBST is set by every substitution (R459). -/
def Mod.backWith (m : Mod) (n k : Nat) (subst : Bool) : Mod := m.relmap n { valid := true, subst, slot := k % 52 }

/-- Slot k backs logical engine n again; SUBST stays where it is not the slot assigned at shipment. DEDUCED, log entry 77. -/
def Mod.backAgain (m : Mod) (n k : Nat) : Mod := m.backWith n k (decide (k ≠ m.homeSlot n))

/-- A task that dispatch has read and whose kernel on a lost engine has not started ends as faulted: no further kernel of it starts (R459). -/
def Mod.lostTask (m : Mod) (t : Task) (n : Nat) : Mod :=
  let m := { m with engs := m.engs.map (fun (e : Engine) => if e.task = some (t.q, t.idx) && e.st ≠ EState.run then { e with task := none, loading := false } else e) }
  let first := t.faultCode = 0
  let m := m.setTask { t with noStart := true, reserved := [], faultCode := if first then Ev.taskEngineInvalid else t.faultCode,
                              faultEng := if first then n else t.faultEng }
  if t.desc.stepBound then m.health t.desc.step shKfault else m

/-! Forward-only mode -/

/-- Pages that stay powered in forward-only mode: the Felt domain, the router, the ports, the host interface, Calico, power and thermal (R34, R463). -/
def keptPage (pg : Nat) : Bool :=
  (decide (0x0010 ≤ pg) && decide (pg < 0x0020)) || (decide (0x0300 ≤ pg) && decide (pg < 0x0323)) || pg = pgHost || pg = pgCal || pg = pgPwr

/-- The state of an island that is powered off: what its memories, engines and sequencers held is lost (R34, R462). A fenced slot stays fenced. -/
def Mod.islandsOff (m : Mod) : Mod :=
  let state := fun (k : Nat) => if (m.slot k).st = .fenced then EState.fenced else EState.off
  { m with engs := (List.range 312).map (fun k => ({ st := state k } : Engine)), ptGroups := [], dsp := {}, ep := {}, js := {}, ts := {}, clip := {}, kat := {},
           lg := {}, sd := {}, ce := {}, mem := [], poison := [], once := [],
           rt := { m.rt with msgs := m.rt.msgs.map (fun (x : Msg) => { x with owner := .none }) },
           dep := { m.dep with suspects := [], sramCe := [] },
           regs := m.regs.filter (fun e => keptPage (e.1 / 4096)), pages := m.pages.filter (fun e => keptPage e.1 || e.2.offSaid) }

/-- Tests and rotations of Calico are abandoned: a slot that backs a logical engine is ACTIVE, another that was LENT or in TEST a RESERVE (R469). -/
def Mod.dropTests (m : Mod) : Mod :=
  { m with dep := { m.dep with slots := m.dep.slots.zipIdx.map (fun (x : SlotDep × Nat) =>
      let s := x.1
      let st := if s.st = SlotSt.lent || s.st = SlotSt.test then (if m.logicalOf x.2 = 0x1FF then SlotSt.reserve else SlotSt.active) else s.st
      { s with st, testFrom := none, testWaits := false, lentTo := none, passed := false, rotEnd := false }) } }

/-- In forward-only mode the Calico page keeps CAL_SLOT and its counters alone (R569). -/
def Mod.calServed (m : Mod) : Mod :=
  ({ m with dep := { m.dep with cls := List.replicate 16 none } } : Mod).dropRegs (fun q off => q = pgCal && !(decide (0x180 ≤ off) && decide (off < 0x1AC)))
  |>.setPage pgCal {}

/-- The stacks in use that are neither failed nor fenced. -/
def Mod.healthyStacks (m : Mod) : Nat := (m.stks.filter (fun k => k.st = .ok || k.st = .degraded)).length

/-- The module enters forward-only mode (R462): 1 engines, 2 stacks, 3 control parity, 4 power stage, 5 command. -/
def Mod.forwardOnly (m : Mod) (cause : Nat) : Mod :=
  if m.fwdOnly then m
  else
    let m := m.emit pgCal Ev.fwdOnlyEntry cause m.activeEng m.healthyStacks 0xFFFFFFFF
    let m := { m with fwdOnly := true }
    let m := if m.ep.isOpen then (m.vetoWith shKfault).1 else m
    let queues := (List.range 8192).map (fun q => (q, ({ m.queue q with state := QState.halted } : Queue)))
    let m := m.dropTests.islandsOff.calServed
    { m with dsp := { m.dsp with queues, stopped := true }, pwr := { m.pwr with st := .fwdOnly, load := false, loaded := [] } }.identAll

/-- The control state of dispatch, the epoch controller with the filter, and the collective engine is guarded by parity (R442, R446). -/
def Mod.ctrlParity (m : Mod) (page off : Nat) : Mod :=
  if (page = pgDsp || page = pgEp || page = pgColl) && m.pwr.st = .on then
    (m.emit pgCal Ev.ctrlParity page off 0 0xFFFFFFFF).forwardOnly 3
  else m

/-- CTRL_PARITY -/
def execCtrlParity (page off : Nat) (s : State) : Host.Outcome State Fault Refusal := run (fun m => m.ctrlParity page off) s

/-! Substitution (R24, R25, R459) -/

/-- Logical engine n is lost: VALID becomes 0 (R25, R26, R459). -/
def Mod.loseEngine (m : Mod) (n : Nat) : Mod :=
  let m := m.relmap n { (m.lmap.getD n {}) with valid := false }
  let m := m.emit pgCal Ev.engLost n m.activeEng 0 (slotWord (52 * (n / 48) + (m.lmap.getD n {}).slot))
  let m := m.each (m.dsp.tasks.filter (fun t => t.desc.engines.contains n && !t.begun.contains n)) (fun m t => m.lostTask t n)
  if m.activeEng < 192 then m.forwardOnly 1 else m

/-- Backs a logical engine with a reserve; while one is to come the engine waits for it, and with none at all it is lost (R459). -/
def Mod.substitute (m : Mod) (n : Nat) : Mod :=
  match m.reserveOf (n / 48) with
  | some k => (m.setSlot k { m.slot k with st := .active, testWaits := false }).backWith n k true
  | none => if m.reserveComes (n / 48) then m else m.loseEngine n

/-- A slot that cannot serve the logical engine that names it. -/
def Mod.outOfService (m : Mod) (n : Nat) : Bool :=
  match m.slotOf n with
  | some k => (m.slot k).st = .fenced || (m.slot k).st = .trial
  | none => false

/-- A rotation for slot k ends without its slot returning: a reserve that serves already keeps the logical engine (R466), another is free again. -/
def Mod.endRotation (m : Mod) (k : Nat) : Mod :=
  { m with dep := { m.dep with slots := m.dep.slots.zipIdx.map (fun (x : SlotDep × Nat) =>
      if x.1.lentTo = some k then { x.1 with st := if m.logicalOf x.2 = 0x1FF then SlotSt.reserve else SlotSt.active, lentTo := none, passed := false, rotEnd := false } else x.1) } }

/-- Fences a slot at its boundary (R458 steps 2 to 5). Its island is powered off, so what the engine and its store held is lost. -/
def Mod.fenceNow (m : Mod) (k cause : Nat) : Mod :=
  let n := m.logicalOf k
  let s := m.slot k
  let m := m.setSlot k { s with st := .fenced, fenceLog := true, fencePend := none, trialPend := false, testFrom := none, testWaits := false,
                                lentTo := none, passed := false, rotEnd := false, backing := none }
  let m := (m.endRotation k).setEng k { st := .fenced }
  let m := { m with mem := spClear m.mem (esAddr k 0) (esAddr k 0x400000), dsp := { m.dsp with wakes := m.dsp.wakes.filter (· ≠ k) },
                    poison := m.poison.filter (fun x => !(decide (esAddr k 0 / 8 ≤ x) && decide (x < esAddr k 0x400000 / 8))
                                                        && !(decide (imKey k 0 0 ≤ x) && decide (x < imKey k 2 0))),
                    regs := m.regs.filter (fun e => e.1 / 4096 ≠ pgSlot k), pages := m.pages.filter (fun e => e.1 ≠ pgSlot k) }
  let m := m.bump pgCal 0x190 1
  let m := m.emit pgCal Ev.engFenced cause n (m.reg pgCal 0x190) (slotWord k)
  if n = 0x1FF then m else m.substitute n

/-- Fences a slot that is at a boundary already, and else leaves the fence to SLOT_FENCE (R458 step 1). -/
def Mod.fence (m : Mod) (k cause : Nat) : Mod :=
  if (m.slot k).st = .fenced || (m.slot k).st = .fused then m
  else if m.atBoundary k then m.fenceNow k cause
  else m.askFence k cause

/-! Kernel boundaries -/

/-- Free values for the bytes that a Calico test leaves in an engine store and in both instruction memory banks (R464). DESIGN CHOICE, log entry 75. -/
def Mod.testFill (m : Mod) (k : Nat) : Mod :=
  let f := m.free
  let word := fun (i : Nat) => (i, Config.freeValue (f + i))
  let im := [spWriteAll 0#64 [] ((List.range 8192).map word), spWriteAll 0#64 [] ((List.range 8192).map (fun i => (i, (word (8192 + i)).2)))]
  let m := m.setEng k { m.eng k with st := .test, im, images := [{}, {}] }
  let m := m.wrPairs ((List.range 0x400000).map (fun i => (esAddr k i, (word (16384 + i)).2.toNat % 256)))
  { m with free := f + 16384 + 0x400000,
           poison := m.poison.filter (fun x => !(decide (esAddr k 0 / 8 ≤ x) && decide (x < esAddr k 0x400000 / 8))
                                               && !(decide (imKey k 0 0 ≤ x) && decide (x < imKey k 2 0))) }

/-- Starts the test of a slot (R464, R465); a slot in TRIAL stays TRIAL while it is tested (R453). -/
def Mod.startTest (m : Mod) (k : Nat) : Mod :=
  let s := m.slot k
  (m.setSlot k { s with st := if s.st = .trial then .trial else .test, testFrom := some s.st, testWaits := false }).testFill k

/-- Slots of a panel in TEST. -/
def Mod.testing (m : Mod) (p : Nat) : Nat := (((List.range 52).map (52 * p + ·)).filter (fun k => (m.slot k).st = .test)).length

/-- A scheduled test may start in a panel now: Calico tests run, and fewer than CONC slots are under test (R465, R471). -/
def Mod.testRoom (m : Mod) (p : Nat) : Bool := m.on pgCal && m.flag pgCal 0x100 0 && decide (m.testing p < m.fld pgCal 0x100 4 2)

/-- An open stage-2 classification of a slot. -/
def Mod.stage2 (m : Mod) (k : Nat) : Bool := m.dep.cls.any (fun c => match c with | some x => decide (x.stage = 2) && decide (x.slot = k) | none => false)

/-- A slot in TRIAL whose classification is over returns at a boundary of the logical engine that it backed; its reserve is free again (R455, R456). -/
def Mod.trialReturn (m : Mod) (n : Nat) : Mod :=
  match (List.range 312).find? (fun k => let s := m.slot k
                                         s.st = .trial && s.backing = some n && s.testFrom.isNone && s.fencePend.isNone && !m.stage2 k) with
  | none => m
  | some k =>
    let back := fun (m : Mod) (st : SlotSt) => m.setSlot k { m.slot k with st, backing := none }
    match m.slotOf n with
    | none => back m .reserve
    | some x =>
      if x = k then back m .active
      else if !m.atBoundary x then m
      else
        let m := if (m.slot x).st = .active then m.setSlot x { m.slot x with st := .reserve } else m
        (back m .active).backAgain n k

/-- A slot in TRIAL that backed no logical engine and whose classification is over is a reserve again. -/
def Mod.loneTrials (m : Mod) (p : Nat) : Mod :=
  m.each ((List.range 52).map (52 * p + ·)) (fun m k =>
    let s := m.slot k
    if s.st = .trial && s.backing.isNone && s.testFrom.isNone && s.fencePend.isNone && !m.stage2 k then m.setSlot k { s with st := .reserve } else m)

/-- The rotation of logical engine n goes on: after a pass the engine returns to its slot, and before the test its reserve takes over (R465). A
rotation whose LENT slot had a suspect event ends, its test abandoned and not counted (R469). A slot that enters TRIAL at this boundary takes no scheduled
test (R453, R469). DEDUCED, log entry 57. -/
def Mod.rotate (m : Mod) (n : Nat) : Mod :=
  match m.slotOf n with
  | none => m
  | some k =>
    if !m.atBoundary k || (m.slot k).fencePend.isSome then m
    else
      match (m.slot k).lentTo with
      | some home =>
        if (m.slot k).passed || (m.slot k).rotEnd then
          let m := m.setSlot k { m.slot k with st := .reserve, lentTo := none, passed := false, rotEnd := false }
          let m := if (m.slot home).testFrom.isSome then m.setEng home { m.eng home with st := .sleep } else m
          (m.setSlot home { m.slot home with st := .active, testFrom := none }).backAgain n home
        else m
      | none =>
        if !(m.slot k).testWaits || (m.slot k).trialPend || !m.testRoom (n / 48) then m
        else
          match (List.range 312).find? (fun r => (m.slot r).lentTo = some k) with
          | some r => (m.backWith n r true).startTest k
          | none => m.startTest k

/-- A reserve whose test waits for room in its panel starts it (R465). -/
def Mod.reserveTests (m : Mod) (p : Nat) : Mod :=
  m.each ((List.range 52).map (52 * p + ·)) (fun m k =>
    if (m.slot k).st = .reserve && (m.slot k).testWaits && m.testRoom p then m.startTest k else m)

/-- What happens at a kernel boundary of logical engine n; one out of service gets a reserve, or is lost when none is to come any more (R459). -/
def Mod.boundary (m : Mod) (n : Nat) : Mod :=
  let m := (m.trialReturn n).rotate n
  if m.outOfService n && ((m.reserveOf (n / 48)).isSome || !m.reserveComes (n / 48)) then m.substitute n else m

/-- The boundaries of a panel are looked at again after its slots have changed. -/
def Mod.settlePanel (m : Mod) (p : Nat) : Mod :=
  if p < 6 && !m.fwdOnly then (m.each ((List.range 48).map (48 * p + ·)) Mod.boundary).loneTrials p |>.reserveTests p else m

/-! Commands of the classifications and fences -/

/-- SLOT_FENCE: a fence that was asked for, at the slot's boundary (R458) -/
def execSlotFence (p sl : Nat) (s : State) : Host.Outcome State Fault Refusal :=
  run (fun m =>
    match m.slotIdx p sl with
    | none => m
    | some k =>
      match (m.slot k).fencePend with
      | some cause => if m.atBoundary k then (m.fenceNow k cause).settlePanel p else m
      | none => m) s

/-- A stage-2 classification of a slot ends at once for want of a reserve (R453). -/
def Mod.unverified (m : Mod) (k : Nat) : Mod :=
  let fenceIt := m.flag pgCal 0x104 6
  let m := m.each (List.range 16) (fun m i =>
    match m.dep.cls.getD i none with
    | some c =>
      if c.slot = k && c.stage = 2 then
        let m := m.closeCls i
        let m := if fenceIt then m.bump pgCal 0x188 1 else m
        m.emit pgCal Ev.depUnverified c.key.eng c.key.opid (b2n fenceIt) (slotWord k)
      else m
    | none => m)
  let m := m.setSlot k { m.slot k with trialPend := false }
  if fenceIt then m.fenceNow k 1 else m.transient k

/-- A slot enters TRIAL and is tested at once, and a reserve takes its logical engine (R453). DEDUCED, log entry 57. -/
def Mod.enterTrial (m : Mod) (k : Nat) : Mod :=
  let n := m.logicalOf k
  let m := m.setSlot k { m.slot k with st := .trial, trialPend := false, testWaits := false, lentTo := none, passed := false, rotEnd := false,
                                       backing := if n = 0x1FF then none else some n }
  let m := m.endRotation k
  let m := if n = 0x1FF then m else m.substitute n
  if m.on pgCal then m.startTest k else m

/-- TRIAL_ENTRY: the boundary after a stage-2 event (R453). The rotation of a LENT slot ends first (R469). -/
def execTrialEntry (p sl : Nat) (s : State) : Host.Outcome State Fault Refusal :=
  run (fun m =>
    match m.slotIdx p sl with
    | none => m
    | some k =>
      let m := if (m.slot k).trialPend && (m.slot k).st = .lent then m.boundary (m.logicalOf k) else m
      let d := m.slot k
      if !d.trialPend || !m.atBoundary k || d.fencePend.isSome || d.st = .lent then m
      else if !(d.st = .active || d.st = .reserve) then m.setSlot k { d with trialPend := false }
      else
        let needs := m.logicalOf k ≠ 0x1FF
        let m := if needs && (m.reserveOf p).isNone && !m.reserveComes p then m.unverified k else m.enterTrial k
        m.settlePanel p) s

/-- Classification i closes as lost (R456). -/
def Mod.classLost (m : Mod) (i : Nat) : Mod :=
  match m.dep.cls.getD i none with
  | none => m
  | some c =>
    let m := (m.closeCls i).emit pgCal Ev.depClassLost c.key.eng c.key.opid c.stage (slotWord c.slot)
    let m := m.transient c.slot
    let m := if c.stage = 2 then m.setSlot c.slot { m.slot c.slot with trialPend := false } else m
    m.settlePanel (c.slot / 52)

/-- DEP_CLASS_LOST -/
def execDepClassLost (i : Nat) (s : State) : Host.Outcome State Fault Refusal := run (fun m => m.classLost i) s

/-! The Calico test -/

/-- The test of a slot is due (R465, R469): a RESERVE is tested, for an ACTIVE slot a reserve is lent or the test waits for the boundary. -/
def Mod.testDue (m : Mod) (k : Nat) : Mod :=
  let d := m.slot k
  let p := k / 52
  let waits := fun (m : Mod) => (m.setSlot k { d with testWaits := true }).settlePanel p
  if d.fencePend.isSome || d.testWaits then m
  else
    match d.st with
    | .reserve => waits m
    | .active =>
      match (if m.flag pgCal 0x100 1 then m.reserveOf p else none) with
      | some r => waits (m.setSlot r { m.slot r with st := .lent, lentTo := some k, passed := false, rotEnd := false, testWaits := false })
      | none => waits m
    | _ => m

/-- CAL_TEST_DUE -/
def execCalTestDue (p sl : Nat) (s : State) : Host.Outcome State Fault Refusal :=
  run (fun m =>
    match m.slotIdx p sl with
    | some k => if m.on pgCal && m.flag pgCal 0x100 0 then m.testDue k else m
    | none => m) s

/-- The test period in nanoseconds (R465). -/
def Mod.calPeriod (m : Mod) : Nat := m.fld pgCal 0x100 8 8 * hourNs

/-- A test has passed (R465, R466). A slot that a rotation has replaced waits in TEST for the boundary at which it returns; one that backs nothing is
a RESERVE. -/
def Mod.testPass (m : Mod) (k : Nat) (from' : SlotSt) : Mod :=
  let s := m.slot k
  let m := (m.setEng k { m.eng k with st := .sleep }).bump pgCal 0x1A0 1
  let rot := (List.range 312).find? (fun r => (m.slot r).lentTo = some k)
  let st := if from' = .trial then SlotSt.trial
    else if m.logicalOf k ≠ 0x1FF then .active
    else if rot.isSome then .test else .reserve
  let m := m.setSlot k { s with st, testFrom := none, misses := 0, untested := false, lastPass := m.time, due := m.time + m.calPeriod }
  match rot with
  | some r => m.setSlot r { m.slot r with passed := true }
  | none => m

/-- A test has failed: the slot is fenced, and its open classifications close as PERMANENT (R453, R466, R469). -/
def Mod.testFail (m : Mod) (k phase want found : Nat) : Mod :=
  let m := (m.bump pgCal 0x1A4 1).emit pgCal Ev.calFail phase want found (slotWord k)
  let m := m.each (List.range 16) (fun m i =>
    match m.dep.cls.getD i none with
    | some c =>
      if c.slot = k then
        ((m.closeCls i).bump pgCal 0x188 1).emit pgCal Ev.depPermanent c.key.eng c.key.opid (m.lmap.getD c.key.eng {}).slot (slotWord k)
      else m
    | none => m)
  m.fenceNow k 3

/-- CAL_TEST_END: phase 0 is a pass; 1 scan, 2 march, 3 patterns, 4 ZCG-64 (R466, R473) -/
def execCalTestEnd (p sl phase want found : Nat) (s : State) : Host.Outcome State Fault Refusal :=
  run (fun m =>
    match m.slotIdx p sl with
    | none => m
    | some k =>
      match (m.slot k).testFrom with
      | none => m
      | some st => (if phase = 0 then m.testPass k st else m.testFail k phase want found).settlePanel p) s

/-- AGE_H: hours since the last pass, at most 255 (R471). -/
def Mod.ageH (m : Mod) (k : Nat) : Nat := min 255 ((m.time - (m.slot k).lastPass) / hourNs)

/-- The window of a test in nanoseconds (R465). -/
def Mod.calWindow (m : Mod) : Nat := m.fld pgCal 0x100 16 8 * 60 * secNs

/-- The window of a slot's test has closed before the test started (R467). -/
def Mod.calMiss (m : Mod) (k : Nat) : Mod :=
  let d := m.slot k
  if !(m.on pgCal && m.flag pgCal 0x100 0) || !(d.st = .active || d.st = .reserve) then m
  else
    let misses := min 3 (d.misses + 1)
    let m := (m.setSlot k { d with misses, testWaits := false, due := d.due + m.calWindow + m.calPeriod }).endRotation k
    let m := (m.bump pgCal 0x1A8 1).emit pgCal Ev.calMiss misses (d.due / 1000) 0 (slotWord k)
    let m := if misses = 3 && !d.untested then
        let m := (m.setSlot k { m.slot k with untested := true }).emit pgCal Ev.calUntested (m.ageH k) (b2n (m.flag pgCal 0x104 7)) 0 (slotWord k)
        if m.flag pgCal 0x104 7 then m.fence k 4 else m
      else m
    m.settlePanel (k / 52)

/-- CAL_MISS -/
def execCalMiss (p sl : Nat) (s : State) : Host.Outcome State Fault Refusal :=
  run (fun m =>
    match m.slotIdx p sl with
    | none => m
    | some k => m.calMiss k) s

/-! Order 5 of a service frame (R523) -/

/-- The classification timers: a classification none of whose repeats has run within CLS_S seconds of its latest event closes as lost (R456). -/
def Mod.classTimers (m : Mod) : Mod :=
  m.each (List.range 16) (fun m i =>
    match m.dep.cls.getD i none with
    | some c => if c.last + m.fld pgCal 0x104 24 8 * secNs < m.time then m.classLost i else m
    | none => m)

/-- Calico scheduling: every test whose window is open is started or waits, and one whose window has closed is missed (R465, R467). -/
def Mod.calSchedule (m : Mod) : Mod :=
  if !(m.on pgCal && m.flag pgCal 0x100 0) then m
  else
    m.each (List.range 312) (fun m k =>
      let d := m.slot k
      if m.time < d.due || !(d.st = .active || d.st = .reserve) then m
      else if d.due + m.calWindow < m.time then m.calMiss k
      else m.testDue k)

/-! DEP_CMD -/

/-- A write of DEP_CMD: 1 FENCE, 2 UNFENCE, 3 TEST_NOW, 4 FWD_ONLY; others, and slots that do not exist, are discarded (R458, R460, R465, R471). In
forward-only mode FENCE and UNFENCE act on the fence log alone (R569). -/
def Mod.depCmd (m : Mod) (who v : Nat) : Mod :=
  let p := bitsOf v 8 3
  if m.fwdOnly && m.pwr.st = .fwdOnly then
    match bitsOf v 29 3, m.slotIdx p (bitsOf v 0 6) with
    | 1, some k => m.setSlot k { m.slot k with fenceLog := true }
    | 2, some k => m.setSlot k { m.slot k with fenceLog := false }
    | 1, none => m
    | 2, none => m
    | _, _ => m.ignored pgCal 0x108 v who
  else if !m.acts pgCal then m.ignored pgCal 0x108 v who
  else
    match bitsOf v 29 3, m.slotIdx p (bitsOf v 0 6) with
    | 1, some k => (m.fence k 5).settlePanel p
    | 2, some k => m.setSlot k { m.slot k with fenceLog := false }
    | 3, some k => m.testDue k
    | 4, _ => m.forwardOnly 5
    | _, _ => m

/-- The word of a DEP_CMD command. -/
def depWord (cmd p sl : Nat) : Nat := cmd * 2 ^ 29 + p % 8 * 256 + sl % 64

end Sys2Proof.Machine
end

