-- ==== Sys2Proof/Machine/Tasks.lean ====
section
/-! DEFINITION. Dispatch (R282 to R317, R606): queue commands and doorbells, the reading of descriptors, placement, clocks, kernel starts, the completion of tasks with the classifications they open (R449 to R455), and event-counter commands. -/
namespace Sys2Proof.Machine

/-! Queues -/

/-- The register offset and value of a DSP_QCMD write. -/
def qcmdWord (cmd q : Nat) : Nat := cmd * 2 ^ 29 + q % 8192

/-- A command register of the dispatch page acts only while the page is enabled (R317). -/
def Mod.dspCmd (m : Mod) (who off v : Nat) (body : Mod → Mod) : Mod := if m.acts pgDsp then body m else m.ignored pgDsp off v who

/-- QCMD_BAD: the command is discarded (R319). -/
def Mod.qcmdBad (m : Mod) (q cmd : Nat) : Mod := m.emit pgDsp Ev.qcmdBad cmd (m.queue q).state.code 0 q

/-- The byte of the first bad field of a Queue Table entry (R283, R285). -/
def Mod.qtBad (m : Mod) (b : List Nat) : Option Nat :=
  let f := fun (o n : Nat) => ofLe ((b.drop o).take n)
  let rlog := bitsOf (f 0 8) 44 5
  let ring := bitsOf (f 0 8) 0 44
  let cring := bitsOf (f 8 8) 0 44
  if bitsOf (f 0 8) 49 15 ≠ 0 || rlog < 4 || rlog > 16 || ring % 4096 ≠ 0 || ring + 128 * 2 ^ rlog > m.memTop then some 0
  else if bitsOf (f 8 8) 44 20 ≠ 0 || cring % 4096 ≠ 0 || cring + 32 * 2 ^ rlog > m.memTop then some 8
  else if (f 16 4 + 2 ^ 32 - f 20 4) % 2 ^ 32 > 2 ^ rlog then some 16
  else if bitsOf (f 32 1) 5 3 ≠ 0 then some 32
  else if bitsOf (f 33 1) 2 6 ≠ 0 then some 33
  else if bitsOf (f 36 2) 11 5 ≠ 0 then some 36
  else if f 38 2 ≠ 0 then some 38
  else if f 42 2 ≠ 0 then some 42
  else if (b.drop 52).any (· ≠ 0) then some 52
  else none

/-- A Queue Table entry as read; TASKS counts from this enable on (R283). -/
def Queue.ofBytes (b : List Nat) : Queue :=
  let f := fun (o n : Nat) => ofLe ((b.drop o).take n)
  { ring := bitsOf (f 0 8) 0 44, rlog := bitsOf (f 0 8) 44 5, cring := bitsOf (f 8 8) 0 44, tail := f 16 4, head := f 20 4, free := f 24 4,
    doneIdx := f 28 4, prio := bitsOf (f 32 1) 0 2, tailsrc := bitAt (f 32 1) 2, pin := bitAt (f 32 1) 3, irqHalt := bitAt (f 32 1) 4,
    state := .active, tailEvc := f 34 2, msix := bitsOf (f 36 2) 0 11, errCode := f 40 2, errIdx := f 44 4, tasks := 0 }

/-- The pinned queues that are not DISABLED (R288). -/
def Mod.pinnedQueues (m : Mod) : Nat := (m.dsp.queues.filter (fun e => e.2.pinned && e.2.state ≠ .disabled)).length

/-- A queue that becomes ACTIVE: pinned where its entry asks for it and fewer than 256 are, held on the die, its TAIL from its counter when
TAILSRC is 1 (R287, R288, R290). -/
def Mod.activate (m : Mod) (q : Nat) (x : Queue) : Mod :=
  let pins := m.pinnedQueues
  let m := if x.pin && pins ≥ 256 then m.emit pgDsp Ev.qtPinFull pins 0 0 q else m
  let miss := m.reg pgDsp 0x188
  let m := m.setQueueRaw q { x with pinned := x.pin && decide (pins < 256) }
  let m := (m.touch q).setReg pgDsp 0x188 miss
  let m := m.setQueue q (m.queue q)
  if x.tailsrc && x.tail ≠ m.ctr x.tailEvc % 2 ^ 32 then m.newTail q (m.ctr x.tailEvc % 2 ^ 32) else m

/-- The ENABLE command (R285): the entry is read whole and checked before any state changes. DEDUCED, log entry 71. -/
def Mod.queueEnable (m : Mod) (q : Nat) : Mod :=
  match m.load .dispatch (m.qtAddr q) 64 with
  | (m, .refused _ _) => m.emit pgDsp Ev.qtFault 0 2 0 q
  | (m, .poisoned _) => m.emit pgDsp Ev.qtFault 0 1 0 q
  | (m, .ok b) =>
    match m.qtBad b with
    | some byte => m.emit pgDsp Ev.qtFault byte 0 0 q
    | none => m.activate q (Queue.ofBytes b)

/-- Frees what dispatch had reserved or placed for a task that has started on no engine (R606). -/
def Mod.unplace (m : Mod) (t : Task) : Mod :=
  { m with engs := m.engs.map (fun (e : Engine) => if e.task = some (t.q, t.idx) then { e with task := none, loading := false } else e) }

/-- A queue that drains is DISABLED once no task of it is left (R284). -/
def Mod.drained (m : Mod) (q : Nat) : Mod :=
  let x := m.queue q
  if x.state = .draining && !m.dsp.tasks.any (fun t => t.q = q) then m.setQueue q { x with state := .disabled, pinned := false } else m

/-- The tasks of a queue that have been read and have started on no engine. A task that R279 launches again has started before. -/
def Mod.unbegun (m : Mod) (q : Nat) : List Task := m.dsp.tasks.filter (fun t => t.q = q && t.begun.isEmpty && !t.redone && t.faultCode = 0)

/-- How many indices a task of a queue lies before HEAD. -/
def Queue.behind (x : Queue) (idx : Nat) : Nat := (x.head + 2 ^ 32 - idx) % 2 ^ 32

/-- The tasks that DISABLE returns to the ring: those that have started nowhere and behind which no task of the queue has started or ended. One with
a started task behind it stays placed, since HEAD cannot go back past that task. DEDUCED, log entry 95. -/
def Mod.returned (m : Mod) (q : Nat) : List Task :=
  let x := m.queue q
  let l := m.unbegun q
  let stays := (m.dsp.tasks.filter (fun t => t.q = q && !t.redone && !l.contains t)).map (·.idx) ++ (m.dsp.done.filter (fun d => d.q = q)).map (·.idx)
  l.filter (fun t => stays.all (fun i => decide (x.behind t.idx < x.behind i)))

/-- The DISABLE command (R606): a task read but started on no engine returns to the ring, and HEAD goes back to the first of them. -/
def Mod.queueDisable (m : Mod) (q : Nat) : Mod :=
  let m := m.setQueueRaw q { m.queue q with state := .draining }
  let go := m.returned q
  let back := (go.map (fun t => (m.queue q).behind t.idx)).foldl max 0
  let m := m.each go (fun m t => (m.unplace t).dropTask q t.idx)
  let m := { m with dsp := { m.dsp with redo := m.dsp.redo.filter (fun x => !(x.1 = q && go.any (fun t => t.idx = x.2.1))) } }
  let m := m.setQueueRaw q { m.queue q with head := ((m.queue q).head + 2 ^ 32 - back) % 2 ^ 32 }
  (m.setQueue q (m.queue q)).drained q

/-- A command of DSP_QCMD: 1 ENABLE, 2 DISABLE, 3 RESUME; one that the state does not allow is discarded (R284, R317). DEDUCED, log entry 85. -/
def Mod.queueCmd (m : Mod) (who cmd q : Nat) : Mod :=
  m.dspCmd who 0x118 (qcmdWord cmd q) (fun m =>
    let m := { m with dsp := { m.dsp with lastQueue := q } }
    match cmd, (m.queue q).state with
    | 1, .disabled => m.queueEnable q
    | 2, .active => m.queueDisable q
    | 2, .halted => m.queueDisable q
    | 3, .halted => m.setQueue q { m.queue q with state := .active }
    | _, _ => m.qcmdBad q cmd)

/-- A doorbell write: queue number and bits [18:0] of the new TAIL (R290). -/
def Mod.doorbell (m : Mod) (who q t : Nat) : Mod :=
  m.dspCmd who 0x120 (q * 2 ^ 19 + t) (fun m =>
    let x := m.queue q
    if x.state = .disabled || x.state = .draining then m.qcmdBad q 4
    else if x.tailsrc then m.emit pgDsp Ev.queueOverrun t x.free (2 ^ x.rlog) q
    else m.newTail q ((x.head + (t + 2 ^ 32 - x.head) % 2 ^ 19) % 2 ^ 32))

/-! Descriptors -/

/-- A task descriptor (R294). -/
def TaskDesc.ofBytes (b : List Nat) : TaskDesc :=
  let f := fun (o n : Nat) => ofLe ((b.drop o).take n)
  let fl := f 16 4
  { kid := f 0 4, klen := f 4 2 % 2 ^ 14, entry := f 6 2 % 2 ^ 13, kaddr := f 8 8 % 2 ^ 44, gang := bitAt fl 0, serial := bitAt fl 1,
    irq := bitAt fl 2, opt := bitAt fl 3, stepBound := bitAt fl 4, step := f 20 4, pmask := f 24 1 % 64, imask := f 26 6,
    waits := (List.range 4).filterMap (fun j => if bitAt fl (8 + j) then some (f (32 + 8 * j) 2, f (34 + 8 * j) 6) else none),
    sigs := (List.range 4).filterMap (fun j => if bitAt fl (12 + j) then some (sigOf (f (64 + 8 * j) 8)) else none),
    args := (List.range 4).map (fun j => BitVec.ofNat 64 (f (96 + 8 * j) 8)) }

/-- The byte of the first bad field of a descriptor (R294, R295). -/
def taskDescBad (b : List Nat) : Option Nat :=
  let f := fun (o n : Nat) => ofLe ((b.drop o).take n)
  let fl := f 16 4
  let klen := f 4 2 % 2 ^ 14
  if f 4 2 ≥ 2 ^ 14 || klen = 0 || klen > 8192 then some 4
  else if f 6 2 ≥ 2 ^ 13 || f 6 2 ≥ klen then some 6
  else if f 8 8 ≥ 2 ^ 44 then some 8
  else if bitsOf fl 5 3 ≠ 0 || bitsOf fl 16 16 ≠ 0 then some 16
  else if f 24 1 ≥ 64 || f 24 1 = 0 then some 24
  else if f 25 1 ≠ 0 then some 25
  else if f 26 6 = 0 then some 26
  else (List.range 4).findSome? (fun j =>
    let s := f (64 + 8 * j) 8
    if bitsOf s 33 7 ≠ 0 || (bitAt fl (12 + j) && bitsOf s 40 24 = 0) then some (64 + 8 * j) else none)

/-- The local address of a descriptor slot, and of a completion record (R283). -/
def Queue.slotOf (x : Queue) (idx : Nat) : Nat := x.ring + 128 * (idx % 2 ^ x.rlog)
def Queue.recAt (x : Queue) (idx : Nat) : Nat := x.cring + 32 * (idx % 2 ^ x.rlog)

/-- The 32 bytes of a completion record (R307). -/
def recordBytes (idx : Nat) (fault suspect redone loaded : Bool) (code tStart tEnd eng count : Nat) : List Nat :=
  leBytes 4 idx ++ leBytes 2 (b2n (!fault) + 2 * b2n fault + 4 * b2n suspect + 8 * b2n redone + 16 * b2n loaded) ++ leBytes 2 code
  ++ leBytes 8 tStart ++ leBytes 8 tEnd ++ leBytes 2 eng ++ leBytes 2 count ++ [0, 0, 0, 0]

/-- The step has ended in COMMIT, ROLLBACK or a skip: it lies behind the epoch's step, or its epoch is closed with an outcome (R293). -/
def Mod.stepOver (m : Mod) (step : Nat) : Bool :=
  decide (step < m.ep.step) || (decide (step = m.ep.step) && !m.ep.isOpen && decide (m.ep.outcome ≠ 0))

/-- A task of the queue has completed: DONE, FREE and TASKS follow, and dispatch forgets it (R293, R306 step 3). -/
def Mod.taskGone (m : Mod) (q idx : Nat) (opt : Bool) (step : Nat) : Mod :=
  let m := (m.dropTask q idx).bump pgDsp 0x180 1
  let m := m.setQueueRaw q { m.queue q with tasks := ((m.queue q).tasks + 1) % 2 ^ 32 }
  let m := { m with dsp := { m.dsp with done := m.dsp.done ++ [({ q, idx, opt, step, ended := m.stepOver step } : DoneTask)] } }
  let m := m.advance q
  m.setQueue q (m.queue q)

/-- Refuses a descriptor: its event, a completion record with FAULT, and the halt (R295). The times of a task that runs nowhere are free
values; the task counts as completed. DEDUCED, log entry 22. -/
def Mod.refuseTask (m : Mod) (q idx code d1 eng count : Nat) (d : TaskDesc) : Mod :=
  let m := m.emit pgDsp code idx d1 0 q
  let (a, m) := m.fresh
  let (b, m) := m.fresh
  let m := m.put .dispatch ((m.queue q).recAt idx) (recordBytes idx true false false false code a.toNat b.toNat eng count)
  (m.taskGone q idx d.opt d.step).qHalt q code idx

/-- Dispatch reads descriptor HEAD, a use of the queue's entry on the die (R287, R292, R295). A descriptor that cannot be read has no byte, no engine set and
no fields, and an invalid engine is the record's ENG: DESIGN CHOICE, log entry 99. -/
def Mod.taskRead (m : Mod) (q : Nat) : Mod :=
  let x := m.queue q
  let idx := x.head
  let m := (m.setQueue q { x with head := (idx + 1) % 2 ^ 32 }).usedNow q
  match m.load .dispatch (x.slotOf idx) 128 with
  | (m, .refused _ _) => m.refuseTask q idx Ev.taskDescBad 0 0x1FF 0 {}
  | (m, .poisoned _) => m.refuseTask q idx Ev.taskDescBad 0 0x1FF 0 {}
  | (m, .ok b) =>
    let d := TaskDesc.ofBytes b
    match taskDescBad b with
    | some byte => m.refuseTask q idx Ev.taskDescBad byte 0x1FF d.engines.length d
    | none =>
      match d.engines.find? (fun n => (m.slotOf n).isNone) with
      | some n => m.refuseTask q idx Ev.taskEngineInvalid n n d.engines.length d
      | none => { m with dsp := { m.dsp with tasks := m.dsp.tasks ++ [{ q, idx, desc := d }] } }

/-- The queue's last task read has been placed on its whole set, and a SERIAL one has completed (R292). -/
def Mod.mayRead (m : Mod) (q : Nat) : Bool :=
  m.dsp.tasks.all (fun t => t.q ≠ q || t.redone || (!t.desc.serial && decide (t.placed.length = t.desc.engines.length)))

/-- TASK_READ -/
def execTaskRead (q : Nat) (s : State) : Host.Outcome State Fault Refusal :=
  run (fun m =>
    let x := m.queue q
    if m.on pgDsp && x.state = .active && covered x.head x.tail && m.mayRead q then m.taskRead q else m) s

/-- A task's enabled waits all hold (R296). -/
def Mod.waitsHold (m : Mod) (d : TaskDesc) : Bool := d.waits.all (fun w => decide (w.2 ≤ m.ctr w.1))

/-- TASK_READY: a task that is ready stays ready (R296) -/
def execTaskReady (q idx : Nat) (s : State) : Host.Outcome State Fault Refusal :=
  run (fun m =>
    match m.task? q idx with
    | some t =>
      if !t.ready && m.waitsHold t.desc then
        let m := { m with dsp := { m.dsp with seq := m.dsp.seq + 1 } }
        m.setTask { t with ready := true, readySeq := m.dsp.seq }
      else m
    | none => m) s

/-! Clocks -/

/-- A clock may start: DSP_WAKE.STAGGER has passed since the last start (R304). While machine time does not run, no time is known to be missing. -/
def Mod.staggerOver (m : Mod) : Bool :=
  match m.dsp.lastWake with
  | some t => !m.mt.started || decide (t + m.fld pgDsp 0x110 0 10 ≤ m.time)
  | none => true

/-- The first time at which the next clock may start (R304). -/
def Mod.nextWake (m : Mod) : Nat :=
  match m.dsp.lastWake with
  | some t => if m.mt.started then max m.time (t + m.fld pgDsp 0x110 0 10) else m.time
  | none => m.time

/-- Starts the fast clock of a slot (R30, R304). -/
def Mod.clockStart (m : Mod) (k : Nat) : Mod :=
  let at' := m.nextWake
  let m := (m.setEng k { m.eng k with st := .idle }).bump pgDsp 0x190 1
  { m with dsp := { m.dsp with lastWake := some at', wakes := m.dsp.wakes.filter (· ≠ k) } }

/-- A register access waits for the clock of its engine: the clocks asked for before it start first, each at its time (R32, R304). The access itself
takes no time in the model. DESIGN CHOICE, log entry 49. -/
def Mod.wakeNow (m : Mod) (k : Nat) : Mod :=
  if (m.eng k).st ≠ .sleep then m
  else
    let m := m.each (m.dsp.wakes.filter (fun j => j ≠ k && (m.eng j).st = .sleep)) Mod.clockStart
    m.clockStart k

/-- Asks for the clock of a slot; starts wait in the order of their requests (R304). -/
def Mod.wake (m : Mod) (k : Nat) : Mod :=
  if (m.eng k).st ≠ .sleep || m.dsp.wakes.contains k then m
  else if m.dsp.wakes.isEmpty && m.staggerOver then m.clockStart k
  else { m with dsp := { m.dsp with wakes := m.dsp.wakes ++ [k] } }

/-- ENGINE_CLOCK_START: the oldest queued start begins (R304) -/
def execEngineClockStart (p sl : Nat) (s : State) : Host.Outcome State Fault Refusal :=
  run (fun m =>
    match m.dsp.wakes with
    | k :: t =>
      if k = 52 * p + sl && m.staggerOver then
        if (m.eng k).st = .sleep then m.clockStart k else { m with dsp := { m.dsp with wakes := t } }
      else m
    | [] => m) s

/-- ENGINE_CLOCK_STOP: an engine that has been idle for 1 µs and carries no limiter load (R30, R305, R536); the state is kept (R31) -/
def execEngineClockStop (p sl : Nat) (s : State) : Host.Outcome State Fault Refusal :=
  run (fun m =>
    let k := 52 * p + sl
    let e := m.eng k
    if e.st = .idle && e.task.isNone && (m.reservedFor (m.logicalOf k)).isNone && !m.ptPending k && !e.moving && !m.pwr.loaded.contains k then m.setEng k { e with st := .sleep }
    else m) s

/-! Placement -/

/-- The optimiser task may be launched: its step's launches have not been stopped (R279), and the redo list has room for it or does not
concern it (R309). -/
def Mod.optMay (m : Mod) (t : Task) : Bool :=
  !t.desc.opt || t.redone || !t.placed.isEmpty ||
  (m.dsp.stopOpt ≠ some t.desc.step
   && (m.fld pgEp 0x900 0 2 ≠ 2 || (m.clip.valid && m.clip.step = t.desc.step)
       || decide ((m.dsp.redo.filter (fun x => x.2.2 = t.desc.step)).length < 4096)))

/-- Dispatch starts kernels: the page is enabled and not being disabled, and nothing has stopped it (R317, R326, R462). -/
def Mod.dspRuns (m : Mod) : Bool := m.on pgDsp && !(m.page pgDsp).busy && !m.dsp.stopped

/-- A task's queue lets its kernels be placed: a DRAINING queue only those of a task that has begun (R606). -/
def Mod.queueMay (m : Mod) (t : Task) : Bool :=
  match (m.queue t.q).state with
  | .active => true
  | .halted => true
  | .draining => !t.begun.isEmpty || !t.placed.isEmpty || t.redone
  | .disabled => false

/-- A gang task that became ready earlier and still has engines to reserve keeps this one from a later gang task (R298). -/
def Mod.gangBlocked (m : Mod) (t : Task) (n : Nat) : Bool :=
  t.desc.gang && m.dsp.tasks.any (fun u => u.desc.gang && u.ready && decide (u.readySeq < t.readySeq) && u.placed.isEmpty && !u.noStart
                                            && u.desc.engines.contains n && !u.reserved.contains n)

/-- Logical engine n can take a task: its slot is in service, runs no kernel and waits for no fence and no trial, and no task has reserved it (R297, R298, R457). DEDUCED, log entry 56. -/
def Mod.engFree (m : Mod) (n : Nat) : Bool :=
  match m.slotOf n with
  | some k =>
    let e := m.eng k
    let d := m.slot k
    (d.st = .active || d.st = .lent) && (e.st = .idle || e.st = .sleep) && e.task.isNone && (m.reservedFor n).isNone && d.fencePend.isNone && !d.trialPend
  | none => false

/-- A task could take logical engine n now. -/
def Mod.couldTake (m : Mod) (t : Task) (n : Nat) : Bool :=
  t.ready && !t.noStart && t.desc.engines.contains n && !t.placed.contains n && m.queueMay t && m.optMay t && !m.gangBlocked t n

/-- Task u goes before task t (R299). -/
def Mod.before (m : Mod) (u t : Task) : Bool :=
  let p := (m.queue u.q).prio
  let r := (m.queue t.q).prio
  decide (p < r) || (decide (p = r) && (decide (u.readySeq < t.readySeq) || (decide (u.readySeq = t.readySeq) && decide (u.q < t.q))))

/-- An image matches (R301). -/
def Image.holds (i : Image) (d : TaskDesc) : Bool := decide (d.kid ≠ 0) && i.kid = d.kid && i.kaddr = d.kaddr && i.klen = d.klen

/-- A write of instruction words from index 0 of a bank of a slot, by dispatch (1) or the Felt controller (2). One to the active bank is discarded
(R237); a written word is no longer uncorrectable (R236, R443). LOADING stays 1 until the kernel starts, faults or is taken away (R239): DESIGN CHOICE, log
entry 100. -/
def Mod.imLoad (m : Mod) (k bank writer : Nat) (bs : List Nat) (img : Image) : Mod :=
  let e := m.eng k
  if bank = e.active then (m.bump (pgSlot k) 0x19C 1).emit (pgSlot k) Ev.imActiveWrite bank 0 writer (m.logicalOf k)
  else
  let ws := (List.range (bs.length / 8)).map (fun i => (i, BitVec.ofNat 64 (ofLe ((bs.drop (8 * i)).take 8))))
  let m := m.setEng k { e with im := e.im.set bank (spWriteAll 0#64 (e.im.getD bank []) ws), images := e.images.set bank img, loading := true }
  { m with poison := m.poison.filter (fun x => !(decide (imKey k bank 0 ≤ x) && decide (x < imKey k bank ws.length))) }

/-- Makes a slot's banks hold a task's image: nothing to do where one does, else the image is read into the inactive bank (R301, R302). Answers
whether it was loaded, or none where the read failed (R303, R325). -/
def Mod.image (m : Mod) (k : Nat) (d : TaskDesc) : Mod × Option Bool :=
  let e := m.eng k
  if e.images.any (fun i => i.holds d) then (m, some false)
  else
    match m.load .dispatch d.kaddr (8 * d.klen) with
    | (m, .ok bs) => (m.imLoad k (1 - e.active) 1 bs ⟨d.kid, d.kaddr, d.klen⟩, some true)
    | (m, _) => (m, none)

/-- An image load has failed: no kernel of the task starts on an engine that has not started (R303, R306). -/
def Mod.loadFault (m : Mod) (t : Task) (n : Nat) : Mod :=
  let m := m.emit pgDsp Ev.kernelLoadFault t.idx (t.desc.kaddr % 2 ^ 32) (t.desc.kaddr / 2 ^ 32) t.q
  let m := { m with engs := m.engs.map (fun (e : Engine) => if e.task = some (t.q, t.idx) && e.st ≠ EState.run then { e with task := none, loading := false } else e) }
  let t := { t with noStart := true, reserved := [], faultCode := if t.faultCode = 0 then Ev.kernelLoadFault else t.faultCode,
                    faultEng := if t.faultCode = 0 then n else t.faultEng }
  let m := m.setTask t
  if t.desc.stepBound then m.health t.desc.step shKfault else m

/-- Places a task's kernel on logical engine n: the clock, the image, and the fault registers of the last kernel (R199, R301, R304). Answers
whether the image could be had. -/
def Mod.placeOn (m : Mod) (t : Task) (n : Nat) : Mod × Bool :=
  match m.slotOf n with
  | none => (m, false)
  | some k =>
    let (m, r) := m.image k t.desc
    match r with
    | none => (m, false)
    | some loaded =>
      let e := m.eng k
      let m := m.setEng k { e with task := some (t.q, t.idx), faultCode := 0, faultTag := 0, faultBank := 0, faultPc := 0, faultAddr := 0, suspect := false, tainted := false }
      let t := ((m.task? t.q t.idx).getD t)
      ((m.setTask { t with placed := t.placed ++ [n], loaded := t.loaded || loaded }).wake k, true)

/-- Places a task on a list of engines; a failed load ends the placement (R303). -/
def Mod.placeAll (m : Mod) (t : Task) : List Nat → Mod
  | [] => m
  | n :: ns =>
    match m.placeOn t n with
    | (m, true) => m.placeAll t ns
    | (m, false) => m.loadFault ((m.task? t.q t.idx).getD t) n

/-- An optimiser task launched before c is known enters the redo list (R309). -/
def Mod.noteLaunch (m : Mod) (t : Task) : Mod :=
  if t.desc.opt && !t.redone && t.placed.isEmpty && m.fld pgEp 0x900 0 2 = 2 && !(m.clip.valid && m.clip.step = t.desc.step)
      && !m.dsp.redo.contains (t.q, t.idx, t.desc.step) then
    { m with dsp := { m.dsp with redo := m.dsp.redo ++ [(t.q, t.idx, t.desc.step)] } }
  else m

/-- OPT_REDO_LIST_FULL, once per step (R309). -/
def Mod.redoListFull (m : Mod) (t : Task) : Mod :=
  if t.ready && t.desc.opt && m.fld pgEp 0x900 0 2 = 2 && !m.optMay t && m.dsp.stopOpt ≠ some t.desc.step && m.dsp.redoFull ≠ some t.desc.step then
    { m with dsp := { m.dsp with redoFull := some t.desc.step } }.emit pgDsp Ev.optRedoListFull t.desc.step 4096 0 t.q
  else m

/-- Dispatch places a ready task on a free engine; a gang task reserves it, and takes all its engines once it has them all (R297 to R304). -/
def Mod.taskPlace (m : Mod) (t : Task) (n : Nat) : Mod :=
  if !(m.couldTake t n && m.engFree n) || m.dsp.tasks.any (fun u => m.couldTake u n && m.before u t) then m.redoListFull t
  else if !t.desc.gang then (m.noteLaunch t).placeAll t [n]
  else
    let t := { t with reserved := t.reserved ++ [n] }
    let m := m.setTask t
    if t.reserved.length = t.desc.engines.length then
      let t := { t with reserved := [] }
      ((m.setTask t).noteLaunch t).placeAll t t.desc.engines
    else
      match m.slotOf n with
      | some k => m.wake k
      | none => m

/-- TASK_PLACE: what waits for the kernel boundary of the engine goes first (R458, R465) -/
def execTaskPlace (q idx n : Nat) (s : State) : Host.Outcome State Fault Refusal :=
  run (fun m =>
    let m := if n < 288 then m.boundary n else m
    match m.task? q idx with
    | some t => if m.dspRuns then m.taskPlace t n else m
    | none => m) s

/-! Kernel starts -/

/-- An engine holds a placed kernel that can start: its clock runs and nothing of the kernel before it is in flight. -/
def Mod.startable (m : Mod) (k : Nat) : Bool :=
  let e := m.eng k
  e.st = .idle && e.task.isSome && !m.ptPending k && !e.moving

/-- The registers at a kernel start (R300). -/
def Engine.startKernel (e : Engine) (d : TaskDesc) (n : Nat) (seed : W64) : Engine :=
  let bank := if (e.images.getD e.active {}).holds d then e.active else 1 - e.active
  let e := e.clearRegs
  let args := [BitVec.ofNat 64 (d.engines.findIdx (· = n)), BitVec.ofNat 64 d.engines.length, BitVec.ofNat 64 n] ++ d.args
  { e with s := 0#64 :: args ++ List.replicate 24 0#64, active := bank, pc := d.entry, seed, st := .run, loading := false }

/-- Starts the kernel of logical engine n (R238, R263, R300, R301). -/
def Mod.startOne (m : Mod) (t : Task) (n : Nat) : Mod :=
  match m.slotOf n with
  | none => m
  | some k =>
    let t := (m.task? t.q t.idx).getD t
    let m := m.setTask { t with begun := t.begun ++ [n], tStart := if t.begun.isEmpty then m.time else t.tStart }
    m.setEng k ((m.eng k).startKernel t.desc n m.rngSeed)

/-- KERNEL_START: the kernels of a gang start together (R298) -/
def execKernelStart (n : Nat) (s : State) : Host.Outcome State Fault Refusal :=
  run (fun m =>
    match m.slotOf n with
    | none => m
    | some k =>
      match (m.eng k).task with
      | none => m
      | some (q, idx) =>
        match m.task? q idx with
        | none => m
        | some t =>
          let set := if t.desc.gang then t.desc.engines else [n]
          if m.dspRuns && set.all (fun j => t.placed.contains j && !t.begun.contains j && ((m.slotOf j).map m.startable).getD false) then
            m.each set (fun m j => m.startOne t j)
          else m) s

/-! Completion -/

/-- A suspect event of a completed task opens a classification, takes the one it repeats to its next stage, or finds its key marked DATA
(R450 to R453, R455). `before` are the classifications as the task completed: a second event of the same drain is no repeat of the first. -/
def Mod.classify (before : List (Option Cls)) (m : Mod) (x : Suspect) : Mod :=
  let data := fun (m : Mod) => (m.bump pgCal 0x18C 1).emit pgCal Ev.depData x.key.eng x.key.opid x.key.step (slotWord x.slot)
  if m.dep.dataKeys.contains x.key then data m
  else
    match m.clsOf x.key with
    | some i =>
      match m.dep.cls.getD i none with
      | none => m
      | some c =>
        if before.getD i none ≠ some c then m
        else if c.stage = 1 then
          let m := { m with dep := { m.dep with cls := m.dep.cls.set i (some { c with stage := 2, last := m.time }) } }
          m.setSlot c.slot { m.slot c.slot with trialPend := true }
        else
          data { m.closeCls i with dep := { (m.closeCls i).dep with dataKeys := m.dep.dataKeys ++ [x.key] } }
    | none =>
      match m.dep.cls.findIdx? (· = none) with
      | some i => { m with dep := { m.dep with cls := m.dep.cls.set i (some ⟨x.key, x.kind, 1, x.slot, m.time⟩) } }
      | none => (m.emit pgCal Ev.depClassFull x.key.eng x.key.opid 16 (slotWord x.slot)).transient x.slot

/-- What CHK_MODE makes of a suspect task under CLASSIFY: step health or a halt, and the classifications (R450). -/
def Mod.suspectTask (m : Mod) (t : Task) : Mod :=
  let m := if t.desc.stepBound && !m.voteOver t.desc.step then m.health t.desc.step shSuspect else m.qHalt t.q Ev.depSuspect t.idx
  m.each (m.dep.suspects.filter (fun x => x.q = t.q && x.idx = t.idx)) (Mod.classify m.dep.cls)

/-- An optimiser task's signals wait for c of its step (R308). -/
def Mod.clipHolds (m : Mod) (t : Task) : Bool :=
  t.desc.opt && m.fld pgEp 0x900 0 2 = 2 && !t.redone
  && (if m.clip.valid && m.clip.step = t.desc.step then decide (m.clip.factor ≠ 0x3F800000) && m.dsp.redo.contains (t.q, t.idx, t.desc.step)
      else !m.stepOver t.desc.step)

/-- Every kernel of the task that starts has ended. -/
def Task.isOver (t : Task) : Bool := if t.noStart then t.begun.all (fun n => t.ended.contains n) else t.desc.engines.all (fun n => t.ended.contains n)

/-- The completion of a task: record, signals, indices, interrupt, and the halt of a faulted one (R306 to R308, R449). A task that ran nowhere has
free values for its times (log entry 22). DEDUCED, log entry 42. -/
def Mod.taskDone (m : Mod) (t : Task) : Mod :=
  let d := t.desc
  let mode := m.chkMode
  let susp := t.suspect.isSome
  let code := if t.faultCode = 0 && susp && mode = 2 then Ev.depSuspect else t.faultCode
  let eng := if t.faultCode = 0 && susp && mode = 2 then t.suspect.getD 0x1FF else t.faultEng
  let fault := code ≠ 0
  let m := if fault && t.faultCode = 0 && d.stepBound then m.health d.step shKfault else m
  let (free, m) := if t.begun.isEmpty then m.fresh else (0#64, m)
  let (tS, tE) := if t.begun.isEmpty then (free.toNat, free.toNat) else (t.tStart, t.tEnd)
  let m := m.put .dispatch ((m.queue t.q).recAt t.idx) (recordBytes t.idx fault susp t.redone t.loaded code tS tE eng d.engines.length)
  let m := if susp then m.emit pgDsp Ev.taskSuspect t.idx (t.suspect.getD 0x1FF) d.step t.q else m
  let quiet := fault || (susp && mode ≠ 0)
  let m := if quiet then m
    else if m.clipHolds t then { m with dsp := { m.dsp with held := m.dsp.held ++ [⟨t.q, t.idx, d⟩] } }
    else m.taskSignals t.q t.idx d
  let m := if t.redone then m.dropTask t.q t.idx else m.taskGone t.q t.idx d.opt d.step
  let m := if d.irq then m.msix (m.queue t.q).msix else m
  let m := if fault then m.qHalt t.q code t.idx else m
  let m := if susp && mode = 1 then m.suspectTask t else m
  let m := { m with dep := { m.dep with suspects := m.dep.suspects.filter (fun x => !(x.q = t.q && x.idx = t.idx)) } }
  m.drained t.q

/-- TASK_COMPLETE -/
def execTaskComplete (q idx : Nat) (s : State) : Host.Outcome State Fault Refusal :=
  run (fun m =>
    match m.task? q idx with
    | some t => if t.isOver then (m.taskDone t).each t.desc.engines Mod.boundary else m
    | none => m) s

/-! The redo of a step's optimiser tasks -/

/-- Signals that waited for c of a step are applied (R308). -/
def Mod.releaseHeld (m : Mod) (step : Nat) : Mod :=
  let go := m.dsp.held.filter (fun (h : Held) => h.desc.step = step)
  let m := { m with dsp := { m.dsp with held := m.dsp.held.filter (fun (h : Held) => h.desc.step ≠ step) } }
  m.each go (fun m h => m.taskSignals h.q h.idx h.desc)

/-- No launched optimiser task of the step is still to complete (R279 step 2). -/
def Mod.optQuiet (m : Mod) (step : Nat) : Bool := m.dsp.tasks.all (fun t => !(t.desc.opt && t.desc.step = step && !t.placed.isEmpty && !t.redone))

/-- Launches again the optimiser tasks of the redo list: each slot is read again, and the first signals are dropped (R279 step 4, R293, R308). -/
def Mod.relaunch (m : Mod) (step : Nat) : Mod :=
  let go := m.dsp.redo.filter (fun x => x.2.2 = step)
  let m := { m with dsp := { m.dsp with held := m.dsp.held.filter (fun (h : Held) => h.desc.step ≠ step), stopOpt := none } }
  m.each go (fun m x =>
    match m.load .dispatch ((m.queue x.1).slotOf x.2.1) 128 with
    | (m, .ok b) =>
      let m := { m with dsp := { m.dsp with seq := m.dsp.seq + 1 } }
      { m with dsp := { m.dsp with tasks := m.dsp.tasks ++ [{ q := x.1, idx := x.2.1, desc := TaskDesc.ofBytes b, ready := true, readySeq := m.dsp.seq, redone := true }] } }
    | (m, _) => (m.emit pgDsp Ev.taskDescBad x.2.1 0 0 x.1).qHalt x.1 Ev.taskDescBad x.2.1)

/-! Event-counter commands -/

/-- EV_CMD: 1 sets the selected counter to EV_ARG, 2 adds EV_ARG to it (R310, R317). -/
def Mod.evCmd (m : Mod) (who cmd : Nat) : Mod :=
  m.dspCmd who 0x144 cmd (fun m =>
    let c := m.fld pgDsp 0x130 0 16
    let v := m.reg64 pgDsp 0x13C 0x140
    match cmd with
    | 1 => m.setCtr c v
    | 2 => m.addCtr c v
    | _ => m)

/-- The read of EV_VAL_LO takes the whole value in one instant (R317). -/
def Mod.evValRead (m : Mod) : Mod × Nat :=
  let v := m.ctr (m.fld pgDsp 0x130 0 16)
  ({ m with dsp := { m.dsp with evHi := v / 2 ^ 32 } }, v % 2 ^ 32)

end Sys2Proof.Machine
end

