-- ==== Sys2Proof/Machine/Epoch.lean ====
section
/-! DEFINITION. The epoch controller (R331 to R349, R477, R495): the write filter's command, seals, the vote, COMMIT, ROLLBACK, SKIP, the watchdog, and the clip factor with its redo (R276 to R279); and the errors of stacks (R323 to R326). -/
namespace Sys2Proof.Machine

/-! Writes and stack errors -/

/-- The initiator of a type code and number (R355, R572). -/
def Mod.initOf (m : Mod) (ty num : Nat) : Init :=
  match ty with
  | 1 => match m.slotOf num with
    | some k => .engine k
    | none => .engine 0
  | 2 => .coll
  | 3 => .dispatch
  | 4 => .snapLog
  | 5 => .epoch
  | 7 => .remote num
  | 8 => .felt
  | _ => .host

/-- The initiator's task is an optimiser task (R331). -/
def Mod.initOpt (m : Mod) : Init → Bool
  | .engine k =>
    match (m.eng k).task with
    | some (q, idx) => ((m.task? q idx).map (fun t => t.desc.opt)).getD false
    | none => false
  | _ => false

/-- PROTECTED_WRITE (R331) -/
def execProtectedWrite (init num addr : Nat) (data : List Byte) (s : State) : Host.Outcome State Fault Refusal :=
  run (fun m =>
    let i := m.initOf init num
    if init = 1 && (m.slotOf num).isNone then m else (m.store i addr (data.map (·.toNat)) (m.initOpt i)).1) s

/-- Corrected errors of a stack in the running frame; above CE_LIMIT within 1,000 frames the stack becomes DEGRADED (R324). -/
def Mod.stackCe (m : Mod) (i off n : Nat) : Mod :=
  if n = 0 then m
  else
    let k := m.stk i
    let m := (m.setStk i { k with frameCe := k.frameCe + n, lastCe := off }).bump (pgStack i) 0x180 n
    let k := m.stk i
    let total := ((k.frames.filter (fun f => decide (m.felt.frame < f.1 + 1000))).map (·.2)).sum + k.frameCe
    let limit := m.fld (pgStack i) 0x104 16 16
    if decide (total > limit) && k.st = .ok then
      (m.setStk i { k with st := .degraded, fencePend := k.fencePend || m.flag pgCal 0x104 5 }).emit (pgStack i) Ev.stackCeStorm i limit 0 0
    else m

/-- The local address of an offset of a stack (R321). -/
def Mod.stackAddr (m : Mod) (i off : Nat) : Nat := (off / 512 * m.nStacks + (m.stk i).slot) * 512 + off % 512

/-- PATROL_SCRUB: result 0 clean, 1 corrected, 2 uncorrectable; `pass` marks the end of a scrub pass (R323 to R325, R353) -/
def execPatrolScrub (i off res : Nat) (pass : Bool) (s : State) : Host.Outcome State Fault Refusal :=
  run (fun m =>
    if !m.on (pgStack i) || !m.flag (pgStack i) 0x104 0 || (m.stk i).st = .fenced || m.nStacks = 0 then m
    else
      let a := m.stackAddr i off
      let m :=
        if res = 2 || (m.stk i).st = .failed || m.poison.contains (poisonKey a) then
          (if (m.stk i).st = .failed then m else m.setPoison a).ueRead a
        else if res = 1 then m.stackCe i off 1
        else m
      if pass then m.bump (pgStack i) 0x188 1 else m) s

/-- STACK_PHY_LOSS: 1 the PHY has not retrained, 2 the rate of uncorrectable reads (R326) -/
def execStackPhyLoss (i cause : Nat) (s : State) : Host.Outcome State Fault Refusal := run (fun m => m.stackFail i cause) s

/-! Commands of the epoch controller -/

/-- EPOCH_CMD_BAD: the command is discarded (R334, R477). -/
def Mod.epBad (m : Mod) (cmd logOff : Nat) : Mod := m.emit pgEp Ev.epochCmdBad cmd m.ep.st.code logOff 0

/-- Empties the Jersey stack and the Tulle store (R257). -/
def Mod.emptyStores (m : Mod) : Mod := { m with js := { m.js with chains := [] }, ts := { m.ts with chains := [] } }

def Mod.doneEvc (m : Mod) : Nat := m.fld pgEp 0x108 0 16

/-- RNG_EPOCH + 1 (R264, R342, R347). -/
def Mod.nextEpoch (m : Mod) : Mod := m.setReg pgRng 0x108 ((m.rngEpoch + 1) % 2 ^ 32)

/-- The manifest of a snapshot at its seal, without COMPLETE and CHKCRC (R489). -/
def Mod.manifestBytes (m : Mod) (logNext : Nat) : List Nat :=
  leBytes 4 1 ++ [0, 0, 0, 0] ++ leBytes 4 m.ep.step ++ leBytes 4 m.rngEpoch ++ leBytes 8 m.rngSeed.toNat ++ leBytes 2 m.modid
  ++ [m.ranges.length, 0] ++ leBytes 4 m.protCount ++ leBytes 4 logNext ++ leBytes 4 m.lgRecs ++ leBytes 4 0 ++ leBytes 4 m.lmapCrc
  ++ leBytes 8 Config.serial.toNat ++ List.replicate 8 0
  ++ ((List.range 16).map (fun r => leBytes 4 (m.reg pgEp (0x140 + 8 * r)) ++ leBytes 4 (m.reg pgEp (0x144 + 8 * r)))).flatten

/-- The snapshot ends because of the host (R491, R492). Reason 1 segments, 2 page disabled, 3 link or PERST#, 4 completion error. -/
def Mod.snapHostError (m : Mod) (reason : Nat) : Mod :=
  let n := m.sd.drained.length
  m.endSnap.emit pgSnap Ev.snapHostError m.sd.step reason n 0

/-- Starts a snapshot at the seal: every protected page is PENDING (R348); a disabled snapshot DMA page
ends it at once (R491), and so do requests to host memory that are held, as a loss of the link (R577, R578). -/
def Mod.snapSeal (m : Mod) : Mod :=
  let (m, g) := m.cursorRead 0
  let m := { m with ep := { m.ep with snapActive := true },
                    sd := { active := true, step := m.ep.step, sealTime := m.time, pages := m.protCount,
                            manifest := m.manifestBytes (fieldAt g 8 4) } }.setPages []
  if !m.on pgSnap then m.snapHostError 2 else if !m.outbound then m.snapHostError 3 else m

/-- A veto for the step just sealed has come before the seal (R343). -/
def Mod.heldVeto (m : Mod) : Mod :=
  if (m.votesOf 3).isEmpty then m else m.heedVeto 0#32

/-- Seals step s (R335, R419, R476). DEDUCED, log entry 72. -/
def Mod.sealStep (m : Mod) (s : Nat) (snap rerun : Bool) : Mod :=
  let m := { m with ep := { m.ep with step := s } }.logSeal rerun snap
  let keep := (m.ep.pages.map (fun e => (e.1, { e.2 with eslot := none, opt := false }))).filter (fun _ => m.ep.snapActive)
  let ord := (m.ep.ord + 1) % 2 ^ 16
  let m := { m with
    ep := { m.ep with st := .opened, sh := 0#32, published := false, contributed := false, vetoed := false, given := [], decision := .none, restoring := false, watchdog := true,
                      ord, votes := m.ep.votes.filter (fun v => decide ((v.ord + 2 ^ 16 - ord) % 2 ^ 16 < 2 ^ 15)) },
    clip := { m.clip with tau := m.clip.tauPending.getD m.clip.tau, tauPending := none, redoPending := false, valid := m.clip.valid && m.clip.step ≠ s },
    ce := { m.ce with cla := List.replicate 16 {} } }.setPages keep
  let m := if snap then m.snapSeal else m
  let m := { m with ep := { m.ep with minFree := m.poolFree }, js := { m.js with minFree := m.jtFree false }, ts := { m.ts with minFree := m.jtFree true } }
  ((m.setCtr m.doneEvc 0).addCtr (m.fld pgEp 0x10C 0 16) 1).heldVeto

/-- A seal waits while the mirror's buffer is full (R487); it is refused while the log unit page is not enabled (R477). -/
def Mod.trySeal (m : Mod) (cmd : Nat) (go : Mod → Mod) : Mod :=
  if !m.logOn then m.epBad cmd 1
  else if m.lg.stall then { m with lg := { m.lg with delayed := m.lg.delayed ++ [cmd] } }.bump pgLog 0x188 1
  else go m

/-- The automatic seal after COMMIT or SKIP (R342, R347, R492). -/
def Mod.autoGo (m : Mod) : Mod :=
  let s := m.rngEpoch
  let k := m.fld pgEp 0x100 16 16
  let due := decide (k ≠ 0) && s % k = 0
  if due && m.ep.snapActive then
    (m.emit pgEp Ev.snapSkipped s m.sd.step m.snapLeft 0).sealStep s false false
  else m.sealStep s due false

/-- The command code by which a delayed automatic seal is kept. -/
def autoCode : Nat := 8

def Mod.autoSeal (m : Mod) : Mod :=
  if !m.flag pgEp 0x100 2 then m
  else if !m.logOn then m.epBad 1 1
  else m.trySeal autoCode Mod.autoGo

/-- COMMIT (R342). -/
def Mod.commitStep (m : Mod) : Mod :=
  let step := m.ep.step
  let live := m.js.live + m.ts.live
  let m := if live = 0 then m else (m.emit pgEp Ev.jtResidue m.js.live m.ts.live step 0x1FF).bump pgEp 0x848 live
  let pages := (m.ep.pages.map (fun e => (e.1, { e.2 with eslot := none, opt := false }))).filter (fun _ => m.ep.snapActive)
  let m := { m with ep := { m.ep with st := .idle, decision := .none, watchdog := false, outcome := 1 } }.setPages pages
  let m := (m.emptyStores.nextEpoch.bump pgEp 0x204 1).logCommit
  let m := (m.setCtr m.doneEvc 0).stepEnded step
  m.autoSeal

/-- SKIP: a rolled-back step ends as skipped (R347, R486). -/
def Mod.skipStep (m : Mod) : Mod :=
  let step := m.ep.step
  let m := { m with ep := { m.ep with st := .idle, decision := .none, outcome := 3 } }
  let m := m.emptyStores.nextEpoch.logSkip
  ({ m with lg := { m.lg with prevSkipped := true } }.stepEnded step).autoSeal

/-- RERUN seals the same step again (R347). -/
def Mod.rerunStep (m : Mod) : Mod := m.sealStep m.ep.step false true

/-- A command that the state allows, by its code in EP_CMD; others are discarded (R334, R348). -/
def Mod.epDo (m : Mod) (cmd : Nat) : Mod :=
  match cmd, m.ep.st with
  | 1, .idle => m.trySeal 1 (fun m => m.sealStep m.rngEpoch false false)
  | 2, .idle => if m.ep.snapActive then m.epBad 2 0 else m.trySeal 2 (fun m => m.sealStep m.rngEpoch true false)
  | 3, .rolledBack => m.trySeal 3 Mod.rerunStep
  | 4, .rolledBack => m.skipStep
  | 5, .prepared => m.commitStep
  | 6, .prepared => m.decideRollback m.ep.shSlice
  | 8, .idle => m.trySeal autoCode Mod.autoGo
  | 7, _ => if m.ep.snapActive then m.abortSnap else m.epBad 7 0
  | _, _ => m.epBad cmd 0

/-- A write of EP_CMD: it acts only while the page is enabled (R351), and code 8 and beyond is no command. -/
def Mod.epCmd (m : Mod) (who cmd : Nat) : Mod :=
  if !m.acts pgEp then m.ignored pgEp 0x1C0 cmd who
  else if cmd ≥ 8 then m.epBad cmd 0
  else m.epDo cmd

/-- Seals that waited for room in the mirror's buffer go on, in the order in which they came (R487). An automatic seal that finds a step open already
has nothing to seal. -/
def Mod.delayedSeals (m : Mod) : Mod :=
  if m.lg.stall then m
  else
    let cmds := m.lg.delayed
    let m : Mod := { m with lg := { m.lg with delayed := [] } }
    m.each cmds (fun m c => if c = autoCode && m.ep.st ≠ .idle then m else m.epDo c)

/-! The vote -/

/-- DONE_EVC has reached its quota (R339). -/
def Mod.updateDone (m : Mod) : Bool := decide (m.reg pgEp 0x110 ≤ m.ctr m.doneEvc)

/-- EP_CONTRIBUTION: a veto when the health word is not 0, the contribution when the step is update-done (R339) -/
def execEpContribution (s : State) : Host.Outcome State Fault Refusal :=
  run (fun m =>
    if m.ep.st ≠ .opened || m.ep.contributed then m
    else if m.ep.sh ≠ 0#32 then m.forceVeto m.ep.sh
    else if m.updateDone then
      ({ m with ep := { m.ep with contributed := true } } : Mod).voteGo 1
    else m) s

/-- VOTE_PHASE1_COMPLETE (R340, R341) -/
def execVotePhase1Complete (s : State) : Host.Outcome State Fault Refusal :=
  run (fun m =>
    if !m.votes 1 then m
    else
      match m.voteResult 1 with
      | none => m
      | some v =>
        if v.word = 0#32 && decide (m.voters.length ≤ v.upd) && !v.skew then
          (({ m with ep := { m.ep with decision := .commit, st := .voting } } : Mod).publishSh v.word).voteGo 2
        else
          let m := m.decideRollback v.word
          if v.skew then m.emit pgEp Ev.epochVoteSkew m.ep.step v.step m.rngEpoch v.epoch else m) s

/-- COMMIT: phase 2 has completed (R341, R342) -/
def execCommit (s : State) : Host.Outcome State Fault Refusal :=
  run (fun m => if m.votes 2 && (m.voteResult 2).isSome then m.commitStep else m) s

/-! Rollback -/

/-- Copies the slots that tag E holds on pages chosen by `p` back to their pages, and frees them unless tag S holds them too (R336, R346). -/
def Mod.restore (m : Mod) (p : PageSt → Bool) : Mod × Nat :=
  let go := m.ep.pages.filter (fun e => e.2.eslot.isSome && p e.2)
  let m := m.each go (fun m e =>
    match e.2.eslot with
    | some x =>
      let m := (m.copyPage (m.slotAddr x) (e.1 * 65536)).1
      m.setPages ((m.ep.pages.map (fun y => if y.1 = e.1 then (y.1, { y.2 with eslot := none, opt := false }) else y)).filter
                    (fun y => m.ep.snapActive || y.2.eslot.isSome))
    | none => m)
  (m.bump pgEp 0x20C go.length, go.length)

/-- ROLLBACK: no new protected write is admitted, and the restore begins (R346, R486) -/
def execRollback (s : State) : Host.Outcome State Fault Refusal :=
  run (fun m =>
    if m.ep.st = .rollingBack && !m.ep.restoring then { m with ep := { m.ep with restoring := true } }.logAbandon else m) s

/-- What AFTER_RB does once the step is rolled back (R347, R477). -/
def Mod.afterRollback (m : Mod) : Mod :=
  match m.fld pgEp 0x100 0 2 with
  | 1 => m.epDo 3
  | 2 => m.epDo 4
  | _ => m

/-- ROLLBACK_COMPLETE (R346, R347, R486) -/
def execRollbackComplete (s : State) : Host.Outcome State Fault Refusal :=
  run (fun m =>
    if m.ep.st = .rollingBack && m.ep.restoring then
      let (m, n) := m.restore (fun _ => true)
      let m := m.emptyStores.setCtr m.doneEvc 0
      let m := { m with ep := { m.ep with st := .rolledBack, restoring := false, outcome := 2 } }.bump pgEp 0x208 1
      let m := m.emit pgEp Ev.epochRollback m.ep.step m.ep.shSlice.toNat n 0
      let m := { m with clip := { m.clip with redoPending := false } }
      (m.logRolledBack.stepEnded m.ep.step).afterRollback
    else m) s

/-! The step watchdog -/

/-- The waits that the watchdog bounds end on a slot (R234, R277, R344). -/
def Mod.expireWaits (m : Mod) (k : Nat) : Mod :=
  match (m.eng k).wait with
  | .sh _ _ _ => m.shExpire k
  | .clip step desc => m.kernelFault k { code := Ev.clipWaitExpired, d0 := step, d1 := (m.eng k).pc, d2 := desc }
  | _ => m

/-- STEP_WATCHDOG_EXPIRY (R344) -/
def execStepWatchdogExpiry (s : State) : Host.Outcome State Fault Refusal :=
  run (fun m =>
    if !m.ep.watchdog || !(m.ep.st = .opened || m.ep.st = .voting) then m
    else
      let m := m.each (List.range 312) Mod.expireWaits
      let m := (m.bump pgEp 0x210 1).emit pgEp Ev.epochWatchdog m.ep.step m.ep.st.code (m.reg pgEp 0x104) 0
      let m := (m.vetoWith shWatchdog).1
      if m.ep.st = .voting then
        { m with ep := { m.ep with st := .prepared, watchdog := false } }.emit pgEp Ev.epochPrepared m.ep.step 0 0 0
      else m) s

/-! The clip factor -/

/-- CLIP_CTRL.MODE (R277). -/
def Mod.clipMode (m : Mod) : Nat := m.fld pgEp 0x900 0 2

/-- Publishes n and c of a step, or marks a non-finite sum (R276, R277, R279, R308). With MODE OFF no c is formed. -/
def Mod.publishClip (m : Mod) (step : Nat) (nc : Option (Nat × Nat)) : Mod :=
  match nc with
  | none =>
    let m := m.health step shGnormNf
    { m with lg := { m.lg with clip := some ⟨0, 0, m.clipMode, false, true⟩ } }
  | some (n, c) =>
    if m.clipMode = 0 then m
    else
      let free := fun (e : Engine) => match e.wait with
        | .clip st _ => if st = step then { e with wait := .none } else e
        | _ => e
      let m := { m with clip := { m.clip with valid := true, step, norm := n, factor := c }, lg := { m.lg with clip := some ⟨c, n, m.clipMode, false, false⟩ },
                        engs := m.engs.map free }
      if m.clipMode = 2 && Val.lt (Fmt.b32.decode c) (Val.ofInt 1) then
        { m with clip := { m.clip with redoPending := true }, dsp := { m.dsp with stopOpt := some step } }
      else m.releaseHeld step

/-- CLIP_REDO: every launched optimiser task has completed; their pages are restored and the tasks are launched again (R279, R484) -/
def execClipRedo (s : State) : Host.Outcome State Fault Refusal :=
  run (fun m =>
    let step := m.clip.step
    if !m.clip.redoPending || m.ep.st ≠ .opened || !m.optQuiet step then m
    else
      let m := (m.restore (·.opt)).1
      let m := m.dropOverrides ((m.dsp.redo.filter (fun x => x.2.2 = step)).map (fun x => (x.1, x.2.1)))
      let m := { m with clip := { m.clip with redoPending := false },
                        lg := { m.lg with clip := m.lg.clip.map (fun (c : ClipRec) => { c with redo := true }) } }
      let m := (m.bump pgEp 0x914 1).emit pgEp Ev.clipRedo step m.clip.factor m.clip.norm 0x1FF
      m.relaunch step) s

end Sys2Proof.Machine
end

