-- ==== Sys2Proof/Machine/Logs.lean ====
section
/-! DEFINITION. The snapshot DMA (R348, R488 to R492), the log unit's commands (R487, R499) and the known-answer test of the random generator (R266). -/
namespace Sys2Proof.Machine

/-! The snapshot DMA -/

/-- The entries of the segment table: host address and length in 64 KiB units (R488). -/
def segsOf (b : List Nat) (n : Nat) : List (Nat × Nat) :=
  (List.range n).map (fun i => (ofLe ((b.drop (16 * i)).take 8), ofLe ((b.drop (16 * i + 8)).take 4)))

/-- Reads the segment table; one that cannot be read holds no unit (R491). -/
def Mod.segments (m : Mod) : Mod × List (Nat × Nat) :=
  let n := m.fld pgSnap 0x108 0 12
  match m.load .snapLog (m.reg64 pgSnap 0x100 0x104) (16 * n) with
  | (m, .ok b) => (m, segsOf b n)
  | (m, _) => (m, [])

/-- The host address of a unit of the image, filling the segments in order (R488). -/
def unitAddr : List (Nat × Nat) → Nat → Option Nat
  | [], _ => none
  | (a, n) :: t, u => if u < n then some (a + 65536 * u) else unitAddr t (u - n)

/-- The units of an image of P pages (R488). -/
def imageUnits (p : Nat) : Nat := 1 + p + ceilDiv (4 * p) 65536

/-- Writes a unit of the image, filled up with zeros. -/
def Mod.unitWrite (m : Mod) (segs : List (Nat × Nat)) (u : Nat) (bs : List Nat) : Mod :=
  match unitAddr segs u with
  | some a => m.send (.hostWrite a (bs ++ List.replicate (65536 - bs.length) 0))
  | none => m

/-- The manifest with its COMPLETE flag and CHKCRC (R489). -/
def SnapDma.image (d : SnapDma) (complete : Bool) (crc : Nat) : List Nat :=
  d.manifest.take 4 ++ [b2n complete] ++ (d.manifest.drop 5).take 35 ++ leBytes 4 crc ++ d.manifest.drop 44

/-- The snapshot is under way and the host can be written to (R490, R578). -/
def Mod.snapRuns (m : Mod) : Bool := m.sd.active && m.outbound

/-- SNAPSHOT_START: the segments are checked, and the manifest goes out with COMPLETE = 0 (R488, R490, R491). Its CHKCRC is not known yet: a free
value, log entry 24. -/
def execSnapshotStart (s : State) : Host.Outcome State Fault Refusal :=
  run (fun m =>
    if !m.snapRuns || m.sd.started then m
    else
      let (m, segs) := m.segments
      if (segs.map (·.2)).sum < imageUnits m.sd.pages then m.snapHostError 1
      else
        let (v, m) := m.fresh
        let m := m.unitWrite segs 0 (m.sd.image false (v.toNat % 2 ^ 32))
        { m with sd := { m.sd with started := true } }) s

/-- The next page to drain: pages that hold slots first, then the rest, each in ascending order of j (R490). -/
def Mod.nextDrain (m : Mod) : Option Nat :=
  let left := (List.range m.sd.pages).filter (fun j => !m.sd.drained.contains j)
  let slotted := fun (j : Nat) => match nthProt m.ranges j with
    | some pg => match (m.pageSt pg).s with
      | .shadowed _ => true
      | _ => false
    | none => false
  (left.find? slotted).or left.head?

/-- Reads a page for the image; each uncorrectable granule is reported like any other read of it (R325). -/
def Mod.snapRead (m : Mod) (a : Nat) : Mod × List Nat :=
  (m.ueReads (m.badGranules a), m.bytesAt a 65536)

/-- SNAPSHOT_PAGE_DRAIN (R348, R490) -/
def execSnapshotPageDrain (s : State) : Host.Outcome State Fault Refusal :=
  run (fun m =>
    if !m.snapRuns || !m.sd.started then m
    else
      match m.nextDrain with
      | none => m
      | some j =>
        match nthProt m.ranges j with
        | none => m
        | some pg =>
          let (m, segs) := m.segments
          let p := m.pageSt pg
          let (m, bs) := m.snapRead (match p.s with | .shadowed x => m.slotAddr x | _ => pg * 65536)
          let m := m.unitWrite segs (1 + j) bs
          let m := (m.setPageSt pg { p with s := .none }).bump pgSnap 0x188 1
          { m with sd := { m.sd with drained := m.sd.drained ++ [j], crcs := spWrite 0 m.sd.crcs j (crc32c bs) } }) s

/-- The check table: the CRC-32C of page j at byte 4j (R488). -/
def SnapDma.table (d : SnapDma) : List Nat := ((List.range d.pages).map (fun j => leBytes 4 (spRead 0 d.crcs j))).flatten

/-- SNAPSHOT_COMPLETE: the check table, the flushing read, and the manifest with COMPLETE = 1 (R490) -/
def execSnapshotComplete (s : State) : Host.Outcome State Fault Refusal :=
  run (fun m =>
    if !m.snapRuns || !m.sd.started || m.nextDrain.isSome then m
    else
      let (m, segs) := m.segments
      let d := m.sd
      let tab := d.table
      let m := m.each (List.range (ceilDiv tab.length 65536)) (fun m i => m.unitWrite segs (1 + d.pages + i) ((tab.drop (65536 * i)).take 65536))
      let m := (m.send .flush).unitWrite segs 0 (d.image true (crc32c tab))
      let m := { m with sd := { d with active := false, done := true },
                        ep := { m.ep with snapActive := false, pages := m.ep.pages.filter (fun e => e.2.eslot.isSome) } }
      let m := (m.bump pgSnap 0x180 1).emit pgSnap Ev.snapDone d.step d.pages ((m.time - d.sealTime) / 1000000) 0
      if m.flag pgSnap 0x110 16 then m.msix (m.fld pgSnap 0x110 0 11) else m) s

/-! The log unit -/

/-- A write of LG_SHSET: bits [31:16] join the health word of EP_STEP with the effect of SHSET (R235, R338, R499, R504). -/
def Mod.lgSet (m : Mod) (who v : Nat) : Mod :=
  if !m.acts pgLog then m.ignored pgLog 0x130 v who
  else
    let bits := v % 2 ^ 32 / 65536 * 65536
    if m.voteOver m.ep.step then m.emit pgLog Ev.shLate m.ep.step bits 0 0x1FF
    else m.health m.ep.step (BitVec.ofNat 32 bits)

/-- A write of LG_HACK: the records before it are consumed, held ones go out, and delayed seals go on (R487, R504). -/
def Mod.lgAck (m : Mod) (v : Nat) : Mod :=
  let m := m.setReg pgLog 0x11C v
  let m := { m with lg := { m.lg with mirrored := m.lg.mirrored.filter (fun x => decide ((x.1 + 2 ^ 32 - v % 2 ^ 32) % 2 ^ 32 < 2 ^ 31)) } }
  m.mirrorFlush.delayedSeals

/-! The random generator -/

/-- The answers of a slot's engine and drain unit, or of the collective engine under number 312: right unless listed. -/
def katOf (wrong : List (Nat × W64 × W64)) (k : Nat) : Nat × W64 × W64 := (wrong.find? (fun x => x.1 = k)).getD (k, katRight, katRight)

/-- RNG_KAT_RUN: the units answer, and a slot in RUN answers when its kernel ends (R266). `wrong` lists the slots, and 312 for the collective
engine, whose units answer otherwise. -/
def Mod.katStart (m : Mod) (wrong : List (Nat × W64 × W64)) : Mod :=
  let powered := (List.range 312).filter (fun k => let st := (m.eng k).st; st ≠ .off && st ≠ .fenced)
  let busy := powered.filter (fun k => (m.eng k).st = .run)
  let m := { m with kat := { wait := busy.map (katOf wrong) } }
  let m := m.each (powered.filter (fun k => (m.eng k).st ≠ .run)) (fun m k => m.katSlot (katOf wrong k))
  (m.katAnswer 3 0x1FF (katOf wrong 312).2.1).katClose

end Sys2Proof.Machine
end

