-- ==== Sys2Proof/Machine/Ledger.lean ====
section
/-! DEFINITION. Operations in the ledger's memory (R145 to R155) by the engine or the collective engine, and the refusals of the numeric chapters (R95, R164). -/
namespace Sys2Proof.Machine

/-! Refusals -/

/-- FMT_UNSUPPORTED of a conversion (R95). -/
def fmtBad (src dst : Nat) (ud : Bool) (mode opid : Nat) : KFault :=
  { code := Ev.fmtUnsupported, d0 := src * 16 + dst + 256 * b2n ud, d1 := mode, d2 := opid }

/-- SCALE_MODE_BAD (R164). -/
def smodeBad (smode tgt opid : Nat) : KFault := { code := Ev.scaleModeBad, d0 := smode, d1 := tgt, d2 := opid }

/-- SR_RANGE (R77, R95). DEDUCED, log entry 64. -/
def srRange (e chunk opid : Nat) : KFault :=
  { code := Ev.srRange, d0 := e / 2 ^ 32 % 2 ^ 12, d1 := e % 2 ^ 32, d2 := chunk, d3 := some opid }

/-! The ledger -/

/-- Who opens an entry: the initiator, its page, OPID, STEP, the task that runs it, and whether an OPT.* instruction does (R331). -/
structure LedgerUse where
  init : Init
  page : Nat
  opid : Nat
  step : Nat
  task : Option (Nat × Nat) := none
  opt : Bool := false
  deriving DecidableEq, Repr, Inhabited

/-- The local address of an entry (R145). -/
def Mod.ledgerAddr (m : Mod) (idx : Nat) : Nat := m.reg64 pgLog 0x200 0x204 + 128 * idx

/-- The event by which the protected-set filter refused the last write (R331, R333). -/
def Mod.filterCode (m : Mod) : Nat :=
  ((m.events.find? (fun e => e.code = Ev.epochNotOpen || e.code = Ev.epochPoolExhausted || e.code = Ev.addrUnbacked)).map (·.code)).getD Ev.epochNotOpen

/-- Writes an entry; a refusal by the filter refuses the operation. DEDUCED, log entry 20. -/
def Mod.ledgerPut (m : Mod) (u : LedgerUse) (idx : Nat) (e : LEntry) : Mod × Option KFault :=
  match m.store u.init (m.ledgerAddr idx) e.bytes u.opt with
  | (m, none) => (m, none)
  | (m, some _) => (m, some { code := m.filterCode, said := true })

/-- The opened entry, and whether this operation seeded it for the step. -/
structure Opened where
  entry : LEntry
  seeded : Bool
  deriving DecidableEq, Repr, Inhabited

/-- Opens an entry for an operation with target t (R147, R148), with the events and the seeding record of R155. While the log unit page is disabled
SL_BASE and SL_COUNT (R162) count as they are held: DESIGN CHOICE, log entry 88. -/
def Mod.ledgerOpen (m : Mod) (u : LedgerUse) (idx : Nat) (t : Fmt) : Mod × Except KFault Opened :=
  if idx ≥ m.reg pgLog 0x208 then
    (m, .error { code := Ev.ledgerRange, d0 := idx, d1 := m.reg pgLog 0x208, d2 := u.opid, d3 := some u.step })
  else
    match m.load u.init (m.ledgerAddr idx) 128 with
    | (m, .poisoned _) => (m, .error { code := Ev.memUe, said := true })
    | (m, .refused _ c) => (m, .error { code := c, said := true })
    | (m, .ok bs) =>
      let e0 := LEntry.ofBytes bs
      if e0.tgt % 32 ≠ t.code + (if t = .zf8u then 16 else 0) then
        (m, .error { code := Ev.ledgerFormatMismatch, d0 := idx, d1 := e0.tgt, d2 := u.opid, d3 := some u.step })
      else
        match Machine.ledgerOpen e0 u.step t with
        | .skew => (m, .error { code := Ev.ledgerStepSkew, d0 := idx, d1 := e0.stamp, d2 := u.opid, d3 := some u.step })
        | .ok e first why bad =>
          let seeded := first && e.seeding
          match m.ledgerPut u idx e with
          | (m, some f) => (m, .error f)
          | (m, none) =>
            let m := if bad then m.emit u.page Ev.scaleMarginBad idx e.margin u.opid u.step else m
            let m := if seeded then
                (m.emit u.page Ev.ledgerSeeded idx why u.opid u.step |>.bump pgLog 0x214 1).logItem (.seed idx why u.opid)
              else m
            (m, .ok ⟨e, seeded⟩)

/-- What an operation with e folds into the entry as memory holds it: its PEND, its NONFIN and its overridden blocks (R149, R150). -/
def LEntry.fold (cur e : LEntry) (ovrs step : Nat) : LEntry :=
  let cur := { cur with pend := Fmt.b32.encode ((Fmt.b32.decode cur.pend).maximum (Fmt.b32.decode e.pend)) }
  let cur := if bitAt e.flags 3 then cur.setFlag 3 true else cur
  if ovrs = 0 then cur else { cur with ovrCnt := cap32 (cur.ovrCnt + ovrs), ovrStep := step }

/-- The overridden blocks of an operation are counted, reported and logged as SL_CTRL says (R150, R154). -/
def Mod.ledgerOvrs (m : Mod) (u : LedgerUse) (idx ovrs : Nat) : Mod :=
  if ovrs = 0 then m
  else
    let m := m.bump pgLog 0x210 ovrs
    let m := if m.flag pgLog 0x20C 1 then m.emit u.page Ev.scaleOverride idx ovrs u.opid u.step else m
    if m.flag pgLog 0x20C 0 then m.logItem (.ovr idx ovrs u.opid u.task) else m

/-- Ends an operation's use of an entry: what it folded joins the entry in memory, where another use of the same entry may have folded too, and
the overridden blocks are reported (R149, R150, R154). A fold that meets an uncorrectable error refuses the operation (R325). -/
def Mod.ledgerClose (m : Mod) (u : LedgerUse) (idx ovrs : Nat) (e : LEntry) : Mod × Option KFault :=
  match m.load u.init (m.ledgerAddr idx) 128 with
  | (m, .poisoned _) => (m, some { code := Ev.memUe, said := true })
  | (m, .refused _ c) => (m, some { code := c, said := true })
  | (m, .ok bs) =>
    match m.ledgerPut u idx ((LEntry.ofBytes bs).fold e ovrs u.step) with
    | (m, some f) => (m, some f)
    | (m, none) => (m.ledgerOvrs u idx ovrs, none)

/-- Ends the use of one entry after another; the first refusal is the operation's. -/
def Mod.ledgerCloses (u : LedgerUse) : List (Nat × Nat × LEntry) → Mod → Mod × Option KFault
  | [], m => (m, none)
  | (idx, ovrs, e) :: t, m =>
    match m.ledgerClose u idx ovrs e with
    | (m, some f) => (m, some f)
    | (m, none) => Mod.ledgerCloses u t m

/-- An engine's use of the ledger under its CTX. -/
def Iss.use (x : Iss) (opid step : Nat) (opt : Bool := false) : LedgerUse :=
  { init := .engine x.k, page := pgSlot x.k, opid, step, task := x.e.task, opt }

end Sys2Proof.Machine
end

