-- ==== Sys2Proof/Machine/DrainOps.lean ====
section
/-! DEFINITION. A drain as it issues (R185 to R191, R219, R220, R249 to R255): its plan from the descriptor with the refusals, its accesses, the operand popped or read, the side output, and the rows, up to the work that MDRAIN_COMPLETE finishes. -/
namespace Sys2Proof.Machine

/-- What a drain does: descriptor, target, final mode, width of its rows, named tile, the tile and its second of a pair, norm tap. -/
structure DrainPlan where
  at' : Nat
  d : DrainDesc
  tgt : Fmt
  mode : RMode
  tno : Nat
  t : Tile
  pair : Option Tile
  tap : Option Nat

/-- Elements of an output row (R189). -/
def DrainPlan.w (p : DrainPlan) : Nat := if p.pair.isSome then 256 else 128

/-- The function reads an operand (R186). -/
def DrainDesc.readsG (d : DrainDesc) : Bool := d.fn ≥ 9

/-- The largest logical index of the drained elements (R177). -/
def DrainPlan.topE (p : DrainPlan) : Nat :=
  max (p.t.elemIndex 127 127) ((p.pair.map (fun q => q.elemIndex 127 127)).getD 0)

/-- The refusals that a descriptor earns by itself, in the order DESC_BAD, DRAIN_FN_BAD, FMT_UNSUPPORTED, SCALE_MODE_BAD (R71, R82, R130, R133, R135,
R159, R186, R220). The descriptor does not give the width of the stored row, so R159 is tested on OCOL: DESIGN CHOICE, log entry 88. -/
def drainPlan (x : Iss) (at' : Nat) (b : List Nat) (tno : Nat) (t : Tile) (pair : Option Tile) (tap : Option Nat) : Except KFault DrainPlan :=
  let d := DrainDesc.ofBytes b
  match drainDescBad b (tno % 2 = 1) with
  | some i => .error { code := Ev.descBad, d0 := at', d1 := i, d2 := x.e.pc }
  | none =>
    if (fnOperand d.fn).isNone then .error { code := Ev.drainFnBad, d0 := d.fn, d1 := x.e.pc, d2 := t.opid }
    else
      let bad := fmtBad 0xF d.tgt d.ud d.rmode t.opid
      match Fmt.ofCode d.tgt d.ud with
      | none => .error bad
      | some tgt =>
        if !tgt.drainTarget then .error bad
        else
          match RMode.ofCode d.rmode with
          | none => .error bad
          | some r =>
            let blk := (blockSize d.smode).getD 1
            if !smodeAllowed tgt d.smode || d.ocol % blk ≠ 0 || d.ocol % 2 ^ d.rlog ≠ 0 then .error (smodeBad d.smode tgt.code t.opid)
            else if d.readsG && d.gsmode = 7 then .error (smodeBad 7 d.gfmt t.opid)
            else .ok ⟨at', d, tgt, finalMode tgt d.grad r, tno, t, pair, tap⟩

/-- Format and scale mode of a side output (R187, R605). -/
def saveFmt (save : Nat) : Fmt := if save = 1 then .zf16 else if save = 2 then .zf8 else .zm1
def saveMode (save : Nat) : Nat := if save = 2 then 2 else 0

/-- The preload of a tile, as accesses (R183, R206). -/
def preAccs (t : Tile) : List Acc :=
  match t.pre with
  | none => []
  | some q =>
    if q.shape = 0 then (List.range 128).map (fun r => { off := q.off + r * q.stride * 64, n := q.fmt.bytes 128, align := 64 })
    else [{ off := q.off, n := q.fmt.bytes 128, align := 64 }]

/-- The accesses of a drain beside its preload (R157, R186, R206, R219, R602). DEDUCED, log entry 38. -/
def DrainPlan.accs (p : DrainPlan) : List Acc :=
  let d := p.d
  let w := p.w
  let gf := (Fmt.ofCode d.gfmt).getD .b32
  (if p.t.int then [{ off := d.dq, n := 128 + w, align := 64 }] else [])
  ++ (if d.smooth then [{ off := d.smoothOff, n := 0, align := 64 }, { off := d.smoothOff + d.ocol, n := w, align := 1 }] else [])
  ++ (if d.readsG && !d.gpop then
        { off := d.gaddr, n := 128 * pieceRowBytes gf w, align := 64 } ::
        (if d.gsmode = 1 then [{ off := d.gscale, n := 1, align := 64 }]
         else [{ off := d.gscale, n := 128 * rowCodes d.gsmode w, align := 1 }])
      else [])
  ++ (if d.smode = 1 then [{ off := d.scale, n := 1, align := 64 }] else [])
  ++ (if d.save ≠ 0 && !d.savePush then [{ off := d.saveAddr, n := pieceLen (saveFmt d.save) (saveMode d.save) w, align := 64, wr := true }] else [])
  ++ { off := d.out, n := 0, align := 64 } ::
     (List.range 128).map (fun r =>
       let lo := d.ocol * p.tgt.bits / 8
       { off := d.out + r * d.ostride * 64 + lo, n := ceilDiv ((d.ocol + w) * p.tgt.bits) 8 - lo, align := 1, wr := true })
  ++ (match blockSize d.smode with
      | some b => (List.range 128).map (fun r => { off := d.scale + r * d.scstride + d.ocol / b, n := ceilDiv w b, align := 1, wr := true })
      | none => [])
  ++ (if d.recNone then [] else [{ off := d.recOff, n := 32, align := 32, wr := true }])

/-- The derivative operand of a drain: it waits for the push's data, is refused, met an uncorrectable word, or is there (R186, R250, R255). -/
inductive GGot where
  | hold
  | bad (m : Mod) (f : KFault)
  | ok (m : Mod) (g : GOperand)

/-- Reads the data of a popped piece as an operand (R249). -/
def pieceOperand (f : Fmt) (smode w : Nat) (data : List Nat) : GOperand :=
  readOperand (fun i => data.getD i 0) f smode 0 (128 * pieceRowBytes f w) w

def Mod.takeG (m : Mod) (x : Iss) (p : DrainPlan) : GGot :=
  let d := p.d
  let gf := (Fmt.ofCode d.gfmt).getD .b32
  if !d.readsG then .ok m .none
  else if !d.gpop then .ok m (readOperand (m.es x.k) gf d.gsmode d.gaddr d.gscale p.w)
  else
    let got := fun (r : Popped) (f : Fmt) (smode : Nat) => match r with
      | .hold => GGot.hold
      | .bad k => .bad m k
      | .ok m2 data ue _ =>
        match ue with
        | some a => .bad (m.ueRead a) { code := Ev.memUe, said := true, addr := some (m.modid * 2 ^ 44 + a) }
        | none => .ok m2 (pieceOperand f smode p.w data)
    let kind := d.gfmt + 16 * d.gsmode
    let mine := ((m.popChain false x.n d.gaddr).pieces.head?).any (fun q => q.tag = d.gaddr)
    if gf ≠ .zm1 && (d.fn = 0x10 || d.fn = 0x11) && !mine && m.fellBack x.n d.gaddr true then
      got (m.jtPop true x.n d.gaddr (pad64 (pieceLen .zm1 0 p.w)) none) .zm1 0
    else got (m.jtPop (gf = .zm1) x.n d.gaddr (pad64 (pieceLen gf d.gsmode p.w)) (some kind)) gf d.gsmode

/-- The push of a drain's side output, or its refusal (R245, R253, R254). -/
def Mod.planPush (m : Mod) (x : Iss) (p : DrainPlan) : Except KFault PushPlan :=
  let d := p.d
  if d.save = 0 || !d.savePush then .ok .none
  else
    let tulle := decide (d.save = 3)
    let len := pad64 (pieceLen (saveFmt d.save) (saveMode d.save) p.w)
    match m.jtTagBad tulle x.n d.saveAddr with
    | some f => .error f
    | none =>
      if m.jtRoom tulle x.n d.saveAddr len then .ok (.push tulle len ((saveFmt d.save).code + 16 * saveMode d.save))
      else if !tulle && (d.fn = 1 || d.fn = 2) && m.flag pgEp 0x818 0 then
        match m.jtTagBad true x.n d.saveAddr with
        | some f => .error f
        | none =>
          if m.jtRoom true x.n d.saveAddr (16 * p.w) then .ok (.fall (16 * p.w))
          else .error (m.jFull true d.saveAddr (64 + 16 * p.w))
      else .error (m.jFull tulle d.saveAddr (64 + len))

/-- Bytes followed by zeros up to a length. -/
def padTo (n : Nat) (l : List Nat) : List Nat := l ++ List.replicate (n - l.length) 0

/-- A refused push, which JT_FULL_CNT counts where it lacks room (R253, R258). -/
def Mod.pushFault (m : Mod) (f : KFault) : Res :=
  .fault (if f.code = Ev.jerseyFull || f.code = Ev.tulleFull then m.bump pgEp 0x844 1 else m) f

/-- Allocates the piece of a planned push; answers its code (R248, R254). -/
def Mod.pushAlloc (m : Mod) (x : Iss) (p : DrainPlan) : PushPlan → Mod × List Nat
  | .push tulle len kind =>
    let (m, id) := m.jtPush tulle x.n x.e.ctx.step p.d.saveAddr len kind false true
    (m, [2 * id + b2n tulle])
  | .fall len =>
    let m := m.bump pgEp 0x840 1
    let m := if m.flag pgEp 0x818 1 then
        m.emit (pgSlot x.k) Ev.jerseyFallback p.d.saveAddr (pad64 (pieceLen (saveFmt p.d.save) (saveMode p.d.save) p.w)) (m.jtFree false) x.n
      else m
    let (m, id) := m.jtPush true x.n x.e.ctx.step p.d.saveAddr len Fmt.zm1.code true true
    (m, [2 * id + 1])
  | .none => (m, [])

/-- Stores the side output of the rows that enter D5, or writes it into the allocated pieces (R187, R249, R254, R605). -/
def Mod.saveRows (m : Mod) (x : Iss) (p : DrainPlan) (push : PushPlan) (pieces : List Nat) (xs : List (List Val)) : Mod :=
  let d := p.d
  match push with
  | .push _ len _ => m.each pieces (fun m c => m.jtData c (padTo len (sideOutput d.save p.w xs)))
  | .fall len => m.each pieces (fun m c => m.jtData c (padTo len (fallbackBits d.save p.w xs)))
  | .none => if d.save = 0 then m else m.putEs x d.saveAddr (sideOutput d.save p.w xs)

/-- The bytes that a drained row writes: its elements and its scale bytes (R134, R219). -/
def DrainPlan.rowWrites (p : DrainPlan) (rd : Nat → Nat) (r : Nat) (row : DrainRow) : List (Nat × Nat) :=
  let d := p.d
  packElems rd p.tgt (d.out + r * d.ostride * 64) d.ocol row.bits
  ++ (match blockSize d.smode with
      | some b => row.codes.zipIdx.filterMap (fun (z, i) => z.map (fun c => (d.scale + r * d.scstride + d.ocol / b + i, c)))
      | none => [])

/-- Writes rows r, r + 1, … but the last of the drain, whose bytes are answered (R90, R185 D10). -/
def writeRows (x : Iss) (p : DrainPlan) : Nat → List DrainRow → Mod → Mod × List (Nat × Nat)
  | _, [], m => (m, [])
  | r, [row], m => (m, p.rowWrites (m.es x.k) r row)
  | r, row :: t, m => writeRows x p (r + 1) t (m.putEsPairs x (p.rowWrites (m.es x.k) r row))

/-- D4 to D10 of the rows: everything but the last row, the scale bytes of that row and the record, which the answered job holds. A fold that is refused
(R325) leaves the rows written and drops the pieces. DEDUCED, log entry 20. -/
def Mod.drainRun (m : Mod) (x : Iss) (p : DrainPlan) (xs : List (List Val)) (nonref : Bool) (g : GOperand) (push : PushPlan) (pieces : List Nat)
    (o : Option Opened) (seq : Nat) : Mod × Except KFault DrainJob :=
  let d := p.d
  let rd := m.es x.k
  let q : QSpec := { tgt := p.tgt, smode := d.smode, mode := p.mode, strict := d.strict, key := ⟨x.e.seed, p.t.opid, p.t.step⟩,
                     tensor := if d.smode = 1 then rd d.scale else 0x60, step := p.t.step }
  let ctx : DrainCtx := { desc := d, fmt := p.tgt, spec := q, seed := x.e.seed, g,
                          smooth := if d.smooth then (List.range p.w).map (fun c => rd (d.smoothOff + d.ocol + c)) else [] }
  let es := (List.range 128).map (fun r => (List.range p.w).map (fun c =>
    if c < 128 then p.t.elemIndex r c else (p.pair.getD p.t).elemIndex r (c - 128)))
  let acc0 : QAcc := { cnt := { NumRec.start p.tgt 0xF p.mode d.grad d.strict p.t.opid p.t.step with nonref }, entry := o.map (·.entry) }
  let (rows, acc) := drainRows ctx 0 acc0 (xs.zip es)
  let m := m.saveRows x p push pieces xs
  let (m, last) := writeRows x p 0 rows m
  match Mod.ledgerCloses (x.use p.t.opid p.t.step) (acc.entry.toList.map (fun e => (d.ledger, acc.ovrs, e))) m with
  | (m, some f) => (m.each pieces Mod.jtDrop, .error f)
  | (m, none) =>
    (m, .ok { tile := p.tno, writes := last, record := acc.cnt, recOff := if d.recNone then none else some d.recOff, ovr := acc.ovrs ≠ 0,
              seed := (o.map (·.seeded)).getD false, tap := p.tap,
              taps := if p.tap.isSome then (rows.map (rowTaps p.tgt d.smode)).flatten else [], pieces, seq })

/-- The first overflowed element of an integer drain, row and column (R69, R95). -/
def firstOvf (rows : List (List TElem)) : Option (Nat × Nat) :=
  rows.zipIdx.findSome? (fun (row, r) => row.zipIdx.findSome? (fun (el, c) => if el.ovf.isSome then some (r, c) else none))

/-- Runs an accepted drain after its checks: operand, room, ledger entry (R147, R148), then `before` and the stages. `made` is a push that has been
planned and allocated before. -/
def Mod.drainGo (m : Mod) (x : Iss) (p : DrainPlan) (xs : List (List Val)) (ovf : Option (Nat × Nat)) (nonref : Bool) (seq : Nat)
    (made : Option (PushPlan × List Nat)) (before : Mod → Mod) (done : Mod → DrainJob → Res) : Res :=
  match m.takeG x p with
  | .hold => .hold
  | .bad m f => .fault m f
  | .ok m1 _ =>
    match made.elim (m1.planPush x p) (fun l => Except.ok l.1) with
    | .error f => m.pushFault f
    | .ok push =>
      let run' := fun (m : Mod) (o : Option Opened) =>
        let m := before m
        let m := match ovf with
          | some (r, c) => m.emit (pgSlot x.k) Ev.zaIntOverflow p.tno (r * 65536 + c) p.t.opid x.n
          | none => m
        match m.takeG x p with
        | .ok m g =>
          let (m, pieces) := match made with
            | some (_, l) => (m, l)
            | none => m.pushAlloc x p push
          match m.drainRun x p xs nonref g push pieces o seq with
          | (m, .ok j) => done m j
          | (m, .error f) => .fault m f
        | _ => .hold
      if p.d.smode = 3 then
        match m.ledgerOpen (x.use p.t.opid p.t.step) p.d.ledger p.tgt with
        | (m, .error f) => .fault m f
        | (m, .ok o) => run' m (some o)
      else run' m none

/-- The refusals that depend on data and on the generator: a smoothing code above 192, a TENSOR code of 0xFF, the range of SR draws, and draws
while the generator is not ready (R77, R157, R263, R602). The codes tested are those of the drained columns: DESIGN CHOICE, log entry 88. -/
def Mod.drainData (m : Mod) (x : Iss) (p : DrainPlan) : List (Option KFault) :=
  let d := p.d
  let rd := m.es x.k
  [refuseIf (d.smooth && (List.range p.w).any (fun c => decide (192 < rd (d.smoothOff + d.ocol + c)))) (smodeBad d.smode p.tgt.code p.t.opid),
   refuseIf (d.smode = 1 && rd d.scale = 0xFF) (smodeBad 1 p.tgt.code p.t.opid),
   refuseIf (p.mode = .sr && p.topE ≥ 2 ^ 44) (srRange p.topE 0 p.t.opid),
   if p.mode = .sr || d.rlog ≠ 0 then m.rngRefuse x else none]

/-! D2 and D3 -/

/-- The rows of a tile after D2 or D3 (R103, R144); `col` is the first column of its column codes. -/
def tileRows (rd : Nat → Nat) (dq : Nat) (t : Tile) (col : Nat) : List (List Val) :=
  if t.int then t.grid.zipIdx.map (fun (row, r) => row.zipIdx.map (fun (el, c) => stageD3 rd dq el r (col + c)))
  else t.roots.zipIdx.map (fun (row, r) => row.zipIdx.map (fun (v, c) => stageD2 rd t v r c))

/-- The rows of a drain: those of its tile, or of the pair side by side (R189). -/
def DrainPlan.rows (p : DrainPlan) (rd : Nat → Nat) : List (List Val) :=
  match p.pair with
  | none => tileRows rd p.d.dq p.t 0
  | some q => List.zipWith (· ++ ·) (tileRows rd p.d.dq p.t 0) (tileRows rd p.d.dq q 128)

/-- The elements of a drain side by side, for their overflow marks. -/
def DrainPlan.elems (p : DrainPlan) : List (List TElem) :=
  match p.pair with
  | none => p.t.grid
  | some q => List.zipWith (· ++ ·) p.t.grid q.grid

/-- Two tiles of a pair agree in every field of R177 but EBASE (R189). -/
def Tile.agrees (a b : Tile) : Bool :=
  decide ({ a with ebase := 0, rows := [], added := 0, chk := {} } = { b with ebase := 0, rows := [], added := 0, chk := {} })

end Sys2Proof.Machine
end

