-- ==== Sys2Proof/Machine/Vector.lean ====
section
/-! DEFINITION. The vector instructions (R205, R208, R221): lane arithmetic, predicates, loads and stores, the quantised load and store, reductions and conversion. -/
namespace Sys2Proof.Machine

/-! The shapes -/

/-- The rounding mode of vector arithmetic: RNE, RTZ, RUP, RDN or ROD; SR and the reserved codes are refused with FMT_UNSUPPORTED (R221),
whose format word is 0 here: DESIGN CHOICE, log entry 99. -/
def Iss.vmode (x : Iss) (f : RFmt) : Except KFault RMode :=
  let c := f.mod.toNat % 8
  match RMode.ofCode c with
  | some .sr => .error (fmtBad 0 0 false c x.e.ctx.opid)
  | some r => .ok r
  | none => .error (fmtBad 0 0 false c x.e.ctx.opid)

/-- vD lane = op of the binary32 lanes of vA, vB and vC, in a rounding mode. -/
def vecF (m : Mod) (x : Iss) (f : RFmt) (op : RMode → Val → Val → Val → Val) : Res :=
  if penOk f then
    match x.vmode f with
    | .error k => .fault m k
    | .ok r => .next (m.putV x f (fun i => b32w (op r (b32 (x.lane f.a i)) (b32 (x.lane f.b i)) (b32 (x.lane f.c i)))))
  else .fault m x.illegal

/-- vD lane = op of the lanes of vA and vB as words. -/
def vecW (m : Mod) (x : Iss) (f : RFmt) (op : W32 → W32 → W32) : Res :=
  if penOk f then .next (m.putV x f (fun i => op (x.lane f.a i) (x.lane f.b i))) else .fault m x.illegal

/-- pD lane = a condition of the lanes of vA and vB; FUNC names it, `none` is reserved. -/
def vecCmp (m : Mod) (x : Iss) (f : RFmt) (cond : Nat → Option (W32 → W32 → Bool)) : Res :=
  if penOk f && RKind.p.ok f.d then
    match cond f.func.toNat with
    | some c => .next (m.putP x f (fun i => c (x.lane f.a i) (x.lane f.b i)))
    | none => .fault m x.illegal
  else .fault m x.illegal

/-- sD = a reduction of the active lanes of vA. -/
def vecRed (m : Mod) (x : Iss) (f : RFmt) (red : List (Bool × W32) → W64) : Res :=
  if penOk f && RKind.s.ok f.d then
    .next (m.putS x f.d (red ((x.v f.a).zipIdx.map (fun (w, i) => (x.active f i, w)))))
  else .fault m x.illegal

/-! Arithmetic -/

/-- VADD.F -/
def execVaddF (n : Nat) (f : RFmt) (s : State) : Host.Outcome State Fault Refusal :=
  run (fun m => m.issue n (.r 0x50#8 f) (fun m x => vecF m x f (fun r a b _ => addB32 r a b))) s

/-- VSUB.F -/
def execVsubF (n : Nat) (f : RFmt) (s : State) : Host.Outcome State Fault Refusal :=
  run (fun m => m.issue n (.r 0x51#8 f) (fun m x => vecF m x f (fun r a b _ => addB32 r a b.neg))) s

/-- VMUL.F -/
def execVmulF (n : Nat) (f : RFmt) (s : State) : Host.Outcome State Fault Refusal :=
  run (fun m => m.issue n (.r 0x52#8 f) (fun m x => vecF m x f (fun r a b _ => mulB32 r a b))) s

/-- VFMA.F, one rounding -/
def execVfmaF (n : Nat) (f : RFmt) (s : State) : Host.Outcome State Fault Refusal :=
  run (fun m => m.issue n (.r 0x53#8 f) (fun m x => vecF m x f (fun r a b c => fmaB32 r a b c))) s

/-- VMIN.F -/
def execVminF (n : Nat) (f : RFmt) (s : State) : Host.Outcome State Fault Refusal :=
  run (fun m => m.issue n (.r 0x54#8 f) (fun m x => vecW m x f (fun a b => b32w ((b32 a).minimum (b32 b))))) s

/-- VMAX.F -/
def execVmaxF (n : Nat) (f : RFmt) (s : State) : Host.Outcome State Fault Refusal :=
  run (fun m => m.issue n (.r 0x55#8 f) (fun m x => vecW m x f (fun a b => b32w ((b32 a).maximum (b32 b))))) s

/-- The sign operations of VSGN.F: only the sign bit changes (R56). -/
def vsgn (func : Nat) : Option (W32 → W32 → W32) :=
  match func with
  | 0 => some (fun a _ => a &&& 0x7FFFFFFF#32)
  | 1 => some (fun a _ => a ^^^ 0x80000000#32)
  | 2 => some (fun a b => (a &&& 0x7FFFFFFF#32) ||| (b &&& 0x80000000#32))
  | _ => none

/-- VSGN.F -/
def execVsgnF (n : Nat) (f : RFmt) (s : State) : Host.Outcome State Fault Refusal :=
  run (fun m => m.issue n (.r 0x56#8 f) (fun m x =>
    match vsgn f.func.toNat with
    | some op => vecW m x f op
    | none => .fault m x.illegal)) s

/-- The binary32 conditions of VCMP.F. -/
def vcmpF (func : Nat) : Option (W32 → W32 → Bool) :=
  match func with
  | 0 => some (fun a b => !(b32 a).isNan && !(b32 b).isNan && (b32 a).cmp (b32 b) == .eq)
  | 1 => some (fun a b => Val.lt (b32 a) (b32 b))
  | 2 => some (fun a b => Val.le (b32 a) (b32 b))
  | 3 => some (fun a b => (b32 a).isNan || (b32 b).isNan)
  | _ => none

/-- VCMP.F -/
def execVcmpF (n : Nat) (f : RFmt) (s : State) : Host.Outcome State Fault Refusal :=
  run (fun m => m.issue n (.r 0x57#8 f) (fun m x => vecCmp m x f vcmpF)) s

/-- VADD.I -/
def execVaddI (n : Nat) (f : RFmt) (s : State) : Host.Outcome State Fault Refusal :=
  run (fun m => m.issue n (.r 0x58#8 f) (fun m x => vecW m x f (fun a b => a + b))) s

/-- VSUB.I -/
def execVsubI (n : Nat) (f : RFmt) (s : State) : Host.Outcome State Fault Refusal :=
  run (fun m => m.issue n (.r 0x59#8 f) (fun m x => vecW m x f (fun a b => a - b))) s

/-- VMUL.I -/
def execVmulI (n : Nat) (f : RFmt) (s : State) : Host.Outcome State Fault Refusal :=
  run (fun m => m.issue n (.r 0x5A#8 f) (fun m x => vecW m x f (fun a b => a * b))) s

/-- VAND -/
def execVand (n : Nat) (f : RFmt) (s : State) : Host.Outcome State Fault Refusal :=
  run (fun m => m.issue n (.r 0x5B#8 f) (fun m x => vecW m x f (fun a b => a &&& b))) s

/-- VOR -/
def execVor (n : Nat) (f : RFmt) (s : State) : Host.Outcome State Fault Refusal :=
  run (fun m => m.issue n (.r 0x5C#8 f) (fun m x => vecW m x f (fun a b => a ||| b))) s

/-- VXOR -/
def execVxor (n : Nat) (f : RFmt) (s : State) : Host.Outcome State Fault Refusal :=
  run (fun m => m.issue n (.r 0x5D#8 f) (fun m x => vecW m x f (fun a b => a ^^^ b))) s

/-- VSHL.I: shift by vB mod 32 -/
def execVshlI (n : Nat) (f : RFmt) (s : State) : Host.Outcome State Fault Refusal :=
  run (fun m => m.issue n (.r 0x5E#8 f) (fun m x => vecW m x f (fun a b => a <<< (b.toNat % 32)))) s

/-- VSHR.I: logical, arithmetic when FUNC[0] = 1 -/
def execVshrI (n : Nat) (f : RFmt) (s : State) : Host.Outcome State Fault Refusal :=
  run (fun m => m.issue n (.r 0x5F#8 f) (fun m x =>
    vecW m x f (fun a b => if f.func.getLsbD 0 then a.sshiftRight (b.toNat % 32) else a >>> (b.toNat % 32)))) s

/-- The conditions of VCMP.I. -/
def vcmpI (func : Nat) : Option (W32 → W32 → Bool) :=
  match func with
  | 0 => some (fun a b => a == b)
  | 1 => some (fun a b => a.slt b)
  | 2 => some (fun a b => a.ult b)
  | _ => none

/-- VCMP.I -/
def execVcmpI (n : Nat) (f : RFmt) (s : State) : Host.Outcome State Fault Refusal :=
  run (fun m => m.issue n (.r 0x60#8 f) (fun m x => vecCmp m x f vcmpI)) s

/-- VSEL: vA where pP is 1, else vB; PEN must be 1 and PZ 0 -/
def execVsel (n : Nat) (f : RFmt) (s : State) : Host.Outcome State Fault Refusal :=
  run (fun m => m.issue n (.r 0x61#8 f) (fun m x =>
    if f.pen = 1#1 && f.pz = 0#1 then
      .next (m.upd x (fun e => e.setV f.d.toNat ((x.v f.a).zipIdx.map (fun (a, i) => if x.active f i then a else x.lane f.b i))))
    else .fault m x.illegal)) s

/-- VBCAST -/
def execVbcast (n : Nat) (f : RFmt) (s : State) : Host.Outcome State Fault Refusal :=
  run (fun m => m.issue n (.r 0x62#8 f) (fun m x =>
    if penOk f && RKind.s.ok f.a then .next (m.putV x f (fun _ => (x.s f.a).setWidth 32)) else .fault m x.illegal)) s

/-- VIOTA -/
def execViota (n : Nat) (f : RFmt) (s : State) : Host.Outcome State Fault Refusal :=
  run (fun m => m.issue n (.r 0x63#8 f) (fun m x =>
    if penOk f && RKind.s.ok f.a then .next (m.putV x f (fun i => (x.s f.a).setWidth 32 + BitVec.ofNat 32 i)) else .fault m x.illegal)) s

/-- VGET: lane FUNC[6:0], zero-extended -/
def execVget (n : Nat) (f : RFmt) (s : State) : Host.Outcome State Fault Refusal :=
  run (fun m => m.issue n (.r 0x64#8 f) (fun m x =>
    if penOk f && RKind.s.ok f.d then .next (m.putS x f.d ((x.lane f.a (f.func.toNat % 128)).setWidth 64)) else .fault m x.illegal)) s

/-- VPUT: lane FUNC[6:0]; other active lanes unchanged. With PEN = 1 R205 governs the inactive lanes, the named one included: DEDUCED, log entry 19 -/
def execVput (n : Nat) (f : RFmt) (s : State) : Host.Outcome State Fault Refusal :=
  run (fun m => m.issue n (.r 0x65#8 f) (fun m x =>
    if penOk f && RKind.s.ok f.a then
      .next (m.putV x f (fun i => if i = f.func.toNat % 128 then (x.s f.a).setWidth 32 else x.lane f.d i))
    else .fault m x.illegal)) s

/-- The predicate operations of PLOG. -/
def plogOp (func : Nat) : Option (Bool → Bool → Bool) :=
  match func with
  | 0 => some (fun a b => a && b)
  | 1 => some (fun a b => a || b)
  | 2 => some (fun a b => a ^^ b)
  | 3 => some (fun a b => a && !b)
  | 4 => some (fun _ _ => true)
  | 5 => some (fun _ _ => false)
  | _ => none

/-- PLOG -/
def execPlog (n : Nat) (f : RFmt) (s : State) : Host.Outcome State Fault Refusal :=
  run (fun m => m.issue n (.r 0x66#8 f) (fun m x =>
    if penOk f && regsOk f .p .p .p .any then
      match plogOp f.func.toNat with
      | some op => .next (m.putP x f (fun i => op ((x.e.getP f.a.toNat).getLsbD i) ((x.e.getP f.b.toNat).getLsbD i)))
      | none => .fault m x.illegal
    else .fault m x.illegal)) s

/-! Loads and stores -/

/-- VLD: 512 bytes at sA + IMM -/
def execVld (n : Nat) (f : IFmt) (s : State) : Host.Outcome State Fault Refusal :=
  run (fun m => m.issue n (.i 0x68#8 f) (fun m x =>
    if RKind.s.ok f.a then
      let off := (x.s f.a + (imm64 f)).toNat
      m.using x [{ off, n := 512, align := 64 }]
        (.next (m.upd x (fun e => e.setV f.d.toNat ((List.range 128).map (fun i => BitVec.ofNat 32 (m.esNum x (off + 4 * i) 4))))))
    else .fault m x.illegal)) s

/-- VST: 512 bytes at sA + IMM -/
def execVst (n : Nat) (f : IFmt) (s : State) : Host.Outcome State Fault Refusal :=
  run (fun m => m.issue n (.i 0x69#8 f) (fun m x =>
    if RKind.s.ok f.a then
      let off := (x.s f.a + (imm64 f)).toNat
      m.using x [{ off, n := 512, align := 64, wr := true }] (.next (m.putEs x off ((x.v f.d).map (fun w => leBytes 4 w.toNat)).flatten))
    else .fault m x.illegal)) s

/-- The scale bytes of 128 elements, as an access: the one byte of TENSOR at a 64-byte boundary, one byte for each block anywhere (R131, R206, R602). -/
def scaleAcc (smode off : Nat) (wr : Bool) : List Acc :=
  match blockSize smode with
  | some b => [{ off, n := ceilDiv 128 b, align := 1, wr }]
  | none => if smode = 1 then [{ off, n := 1, align := 64 }] else []

/-- The record of an instruction, as an access: 32 bytes at a 32-byte boundary; s0 suppresses it (R206, R212). -/
def Iss.recOff (x : Iss) (r : BitVec 6) : Option Nat := if r = 0#6 then none else some (x.s r).toNat
def recAcc (o : Option Nat) : List Acc :=
  match o with
  | some off => [{ off, n := 32, align := 32, wr := true }]
  | none => []

/-- NSTAT of an instruction that sets it as it issues; a drain still in flight no longer does (R210, R211). -/
def Mod.putNstat (m : Mod) (x : Iss) (v : BitVec 16) : Mod := m.upd x (fun e => { e with nstat := v, nsSeq := e.nsSeq + 1 })

/-- VLDC -/
def execVldc (n : Nat) (f : RFmt) (s : State) : Host.Outcome State Fault Refusal :=
  run (fun m => m.issue n (.r 0x6A#8 f) (fun m x =>
    let c := f.mod.toNat % 16
    let ud := f.mod.getLsbD 4
    let smode := bitsOf f.mod.toNat 10 3
    let opid := x.e.ctx.opid
    if penOk f && regsOk f .v .s .any .s then
        match Fmt.ofCode c ud with
        | none => .fault m (fmtBad c 0 ud 0 opid)
        | some t =>
          if t = .zm1 then .fault m (fmtBad c 0 ud 0 opid)
          else if smode = 7 then .fault m (smodeBad smode c opid)
          else
            let off := (x.s f.a).toNat
            let so := scaleWordOff (x.s f.c)
            m.using x ({ off, n := t.bytes 128, align := 64 } :: scaleAcc smode so false)
              (let rd := m.es x.k
               let vals := (List.range 128).map (fun i => applyCode (t.decode (readElem rd t off i)) (scaleCode rd smode so 0 0 i))
               let outs := vals.map (fun v => Fmt.b32.convert .rne false 0 v)
               let cnt := (vals.zip outs).zipIdx.foldl (fun r e => if x.active f e.2 then r.note e.1.1 e.1.2.2 else r) ({} : NumRec)
               .next ((m.putV x f (fun i => BitVec.ofNat 32 (outs.getD i (0, .plain)).1)).putNstat x (cnt.nstat false false)))
    else .fault m x.illegal)) s

/-- The refusal of an element index that reaches 2^44: SR_RANGE with SR, ILLEGAL_INSTR otherwise (R77, R208). -/
def Iss.eRange (x : Iss) (e : Nat) (mode : RMode) : Option KFault :=
  if e < 2 ^ 44 then none else if mode = .sr then some (srRange e 0 x.e.ctx.opid) else some x.illegal

/-- CTX.EBASE rises by 128 (R208). -/
def Mod.advanceE (m : Mod) (x : Iss) : Mod := m.upd x (fun e => { e with ctx := { e.ctx with ebase := (e.ctx.ebase + 128) % 2 ^ 44 } })

/-- A rounding mode code of a conversion from `src` into `dst`, and the mode after R81; none when R82 lists no such conversion in the mode. -/
def convMode (dst : Fmt) (code : Nat) (grad : Bool) : Option RMode :=
  match RMode.ofCode code with
  | some r => if dst.allowsMode r && dst.allowsMode (finalMode dst grad r) then some (finalMode dst grad r) else none
  | none => none

/-- What VSTC writes once it is accepted: the stored elements, the scale bytes, the record, NSTAT and EBASE (R140, R205, R210). -/
def vstcStore (m : Mod) (x : Iss) (f : RFmt) (t : Fmt) (mode : RMode) (smode off so idx : Nat) (ro : Option Nat) (o : Option Opened) : Res :=
  let c := x.e.ctx
  let grad := f.mod.getLsbD 6
  let strict := f.mod.getLsbD 5
  let rd := m.es x.k
  let q : QSpec := { tgt := t, smode, mode, strict, key := x.key, tensor := if smode = 1 then rd so else 0x60, step := c.step }
  let els := (List.range 128).map (fun i => ({ x := b32 (x.lane f.b i), e := c.ebase + i, on := x.active f i } : QElem))
  let acc : QAcc := { cnt := NumRec.start t 0 mode grad strict c.opid c.step, entry := o.map (·.entry) }
  let (blocks, acc) := quantRow q acc els
  let m := m.putEsPairs x (packElems rd t off 0 (blocks.map (·.bits)).flatten)
  let m := if (blockSize smode).isSome then
      m.putEsPairs x (blocks.zipIdx.filterMap (fun (b, i) => b.code.map (fun z => (so + i, z))))
    else m
  match Mod.ledgerCloses (x.use c.opid c.step) (acc.entry.toList.map (fun e => (idx, acc.ovrs, e))) m with
  | (m, some f) => .fault m f
  | (m, none) =>
    let m := m.putRecord x.k ro acc.cnt
    let seeded := match o with
      | some w => w.seeded
      | none => false
    .next ((m.putNstat x (acc.cnt.nstat (acc.ovrs ≠ 0) seeded)).advanceE x)

/-- VSTC -/
def execVstc (n : Nat) (f : RFmt) (s : State) : Host.Outcome State Fault Refusal :=
  run (fun m => m.issue n (.r 0x6B#8 f) (fun m x =>
    let w := f.mod.toNat
    let c := w % 16
    let ud := f.mod.getLsbD 4
    let smode := bitsOf w 10 3
    let opid := x.e.ctx.opid
    if penOk f && regsOk f .s .s .any .s then
        match Fmt.ofCode c ud with
        | none => .fault m (fmtBad 0 c ud (bitsOf w 7 3) opid)
        | some t =>
          if convKind .b32 t ≠ some .rounding then .fault m (fmtBad 0 c ud (bitsOf w 7 3) opid)
          else
            match convMode t (bitsOf w 7 3) (f.mod.getLsbD 6) with
            | none => .fault m (fmtBad 0 c ud (bitsOf w 7 3) opid)
            | some mode =>
              let off := (x.s f.a).toNat
              let so := (x.s f.c).toNat % 2 ^ 22
              let ro := x.recOff f.d
              if !smodeAllowed t smode then .fault m (smodeBad smode c opid)
              else
                m.using x ({ off, n := t.bytes 128, align := 64, wr := true } :: scaleAcc smode so true ++ recAcc ro)
                  (orElse m [x.eRange (x.e.ctx.ebase + 127) mode,
                             if mode = .sr then m.rngRefuse x else none,
                             refuseIf (smode = 1 && m.es x.k so = 0xFF) (smodeBad smode c opid)]
                    (if smode = 3 then
                      let idx := bitsOf (x.s f.c).toNat 32 16
                      match m.ledgerOpen (x.use opid x.e.ctx.step) idx t with
                      | (m, .error k) => .fault m k
                      | (m, .ok o) => vstcStore m x f t mode smode off so idx ro (some o)
                    else vstcStore m x f t mode smode off so 0 ro none))
    else .fault m x.illegal)) s

/-! Reductions -/

/-- VRED.ADD: the pairwise order by lane index, each addition binary32 RNE, inactive lanes +0 (R121) -/
def execVredAdd (n : Nat) (f : RFmt) (s : State) : Host.Outcome State Fault Refusal :=
  run (fun m => m.issue n (.r 0x70#8 f) (fun m x =>
    vecRed m x f (fun l => b32s (treeRoot (addB32 .rne) 7 (l.map (fun e => if e.1 then b32 e.2 else Val.zero)))))) s

/-- VRED.MAX -/
def execVredMax (n : Nat) (f : RFmt) (s : State) : Host.Outcome State Fault Refusal :=
  run (fun m => m.issue n (.r 0x71#8 f) (fun m x =>
    vecRed m x f (fun l => b32s (l.foldl (fun a e => if e.1 then a.maximum (b32 e.2) else a) (.inf true))))) s

/-- VRED.MIN -/
def execVredMin (n : Nat) (f : RFmt) (s : State) : Host.Outcome State Fault Refusal :=
  run (fun m => m.issue n (.r 0x72#8 f) (fun m x =>
    vecRed m x f (fun l => b32s (l.foldl (fun a e => if e.1 then a.minimum (b32 e.2) else a) (.inf false))))) s

/-- VRED.ADDI -/
def execVredAddi (n : Nat) (f : RFmt) (s : State) : Host.Outcome State Fault Refusal :=
  run (fun m => m.issue n (.r 0x73#8 f) (fun m x =>
    vecRed m x f (fun l => BitVec.ofInt 64 (l.map (fun e => if e.1 then e.2.toInt else 0)).sum))) s

/-- What VRED.CNT counts. -/
def cntClass (func : Nat) : Option (Val → Bool) :=
  match func with
  | 0 => some Val.isNan
  | 1 => some Val.isInf
  | 2 => some (fun v => !v.isFinite)
  | 3 => some (fun v => !v.isZero)
  | _ => none

/-- VRED.CNT -/
def execVredCnt (n : Nat) (f : RFmt) (s : State) : Host.Outcome State Fault Refusal :=
  run (fun m => m.issue n (.r 0x74#8 f) (fun m x =>
    match cntClass f.func.toNat with
    | some c => vecRed m x f (fun l => BitVec.ofNat 64 (l.filter (fun e => e.1 && c (b32 e.2))).length)
    | none => .fault m x.illegal)) s

/-! Conversion -/

/-- The 8-bit and 4-bit formats, between which a conversion goes through binary32 (R82). -/
def Fmt.short : Fmt → Bool
  | .b32 => false
  | .zf24 => false
  | .zf16 => false
  | .zm1 => false
  | _ => true

/-- How VCVT converts; a conversion between two 8-bit or 4-bit formats is exact into binary32 and rounds once (R82). DEDUCED, log entry 21. -/
def vcvtKind (src dst : Fmt) : Option ConvKind :=
  match convKind src dst with
  | some k => some k
  | none => if src.short && dst.short && src ≠ .ze8 then some .rounding else none

/-- What VCVT writes once it is accepted. -/
def vcvtRes (m : Mod) (x : Iss) (f : RFmt) (src dst : Fmt) (kind : ConvKind) (mode : RMode) (ro : Option Nat) : Res :=
  let c := x.e.ctx
  let strict := f.mod.getLsbD 5
  let grad := f.mod.getLsbD 6
  let draw := fun i => if mode = .sr && kind ≠ .zeOverflow then x.key.draw (c.ebase + i) 0 else 0
  let vals := (List.range 128).map (fun i => src.decode (x.lane f.a i).toNat)
  let outs := vals.zipIdx.map (fun (v, i) => dst.convert mode strict (draw i) v)
  let m := m.putV x f (fun i => BitVec.ofNat 32 (outs.getD i (0, .plain)).1)
  if kind = .exact then .next ((m.putNstat x 0#16).advanceE x)
  else
    let cnt := (vals.zip outs).zipIdx.foldl (fun r e => if x.active f e.2 then r.note e.1.1 e.1.2.2 else r)
      (NumRec.start dst src.code mode grad strict c.opid c.step)
    let m := m.putRecord x.k ro cnt
    .next ((m.putNstat x (cnt.nstat false false)).advanceE x)

/-- VCVT. A reserved rounding code is refused for an exact conversion too (R71). The UD bit of FMT_UNSUPPORTED is that of the source or of the target:
DESIGN CHOICE, log entry 99. -/
def execVcvt (n : Nat) (f : RFmt) (s : State) : Host.Outcome State Fault Refusal :=
  run (fun m => m.issue n (.r 0x78#8 f) (fun m x =>
    let w := f.mod.toNat
    let bad := fmtBad (bitsOf w 12 4) (w % 16) (f.mod.getLsbD 4 || f.mod.getLsbD 10) (bitsOf w 7 3) x.e.ctx.opid
    if penOk f && regsOk f .v .v .any .s && !f.mod.getLsbD 11 then
        match Fmt.ofCode (bitsOf w 12 4) (f.mod.getLsbD 10), Fmt.ofCode (w % 16) (f.mod.getLsbD 4) with
        | some src, some dst =>
          match vcvtKind src dst with
          | none => .fault m bad
          | some .exact =>
            if (RMode.ofCode (bitsOf w 7 3)).isNone then .fault m bad
            else orElse m [x.eRange (x.e.ctx.ebase + 127) .rne] (vcvtRes m x f src dst .exact .rne none)
          | some kind =>
            match (if kind = .zeOverflow then RMode.ofCode (bitsOf w 7 3) else convMode dst (bitsOf w 7 3) (f.mod.getLsbD 6)) with
            | none => .fault m bad
            | some mode =>
              let ro := x.recOff f.c
              m.using x (recAcc ro)
                (orElse m [x.eRange (x.e.ctx.ebase + 127) (if kind = .zeOverflow then .rne else mode),
                             if mode = .sr && kind ≠ .zeOverflow then m.rngRefuse x else none]
                  (vcvtRes m x f src dst kind mode ro))
        | _, _ => .fault m bad
    else .fault m x.illegal)) s

end Sys2Proof.Machine
end

