-- ==== Sys2Proof/Machine/LongSum.lean ====
section
/-! DEFINITION. The long accumulators (R122 to R127), VRAND (R262) and VROTC (R222). -/
namespace Sys2Proof.Machine

/-- A drain, or a part in a panel-tree group, with its norm tap to a long accumulator is still at work (R195). -/
def Mod.laBusy (m : Mod) (x : Iss) (r : Nat) : Bool :=
  x.e.tapping r || m.ptGroups.any (fun g => g.parts.any (fun p => p.slot = x.k && p.tap = some r))

/-- laD gains terms. -/
def laAdd (m : Mod) (x : Iss) (f : RFmt) (terms : List Val) : Res :=
  if m.laBusy x f.d.toNat then .hold
  else .next (m.upd x (fun e => e.setLa f.d.toNat (terms.foldl LongAcc.addVal (x.e.getLa f.d.toNat))))

/-- The active lanes. -/
def Iss.activeLanes (x : Iss) (f : RFmt) : List Nat := (List.range 128).filter (x.active f)

/-- LSUM -/
def execLsum (n : Nat) (f : RFmt) (s : State) : Host.Outcome State Fault Refusal :=
  run (fun m => m.issue n (.r 0x80#8 f) (fun m x =>
    if penOk f && regsOk f .la .v .any .any then laAdd m x f ((x.activeLanes f).map (fun i => b32 (x.lane f.a i))) else .fault m x.illegal)) s

/-- LSUM.P -/
def execLsumP (n : Nat) (f : RFmt) (s : State) : Host.Outcome State Fault Refusal :=
  run (fun m => m.issue n (.r 0x81#8 f) (fun m x =>
    if penOk f && regsOk f .la .v .v .any then
      laAdd m x f ((x.activeLanes f).map (fun i => (b32 (x.lane f.a i)).mul (b32 (x.lane f.b i))))
    else .fault m x.illegal)) s

/-- LSUM.S -/
def execLsumS (n : Nat) (f : RFmt) (s : State) : Host.Outcome State Fault Refusal :=
  run (fun m => m.issue n (.r 0x82#8 f) (fun m x =>
    if penOk f && regsOk f .la .s .any .any then laAdd m x f [x.f f.a] else .fault m x.illegal)) s

/-- LSUM.I -/
def execLsumI (n : Nat) (f : RFmt) (s : State) : Host.Outcome State Fault Refusal :=
  run (fun m => m.issue n (.r 0x83#8 f) (fun m x =>
    if penOk f && regsOk f .la .s .any .any then laAdd m x f [Val.ofInt (x.s f.a).toInt] else .fault m x.illegal)) s

/-- LSCOMB -/
def execLscomb (n : Nat) (f : RFmt) (s : State) : Host.Outcome State Fault Refusal :=
  run (fun m => m.issue n (.r 0x84#8 f) (fun m x =>
    if penOk f && regsOk f .la .la .any .any then
      if m.laBusy x f.d.toNat || m.laBusy x f.a.toNat then .hold
      else .next (m.upd x (fun e => e.setLa f.d.toNat ((x.e.getLa f.d.toNat).combine (x.e.getLa f.a.toNat))))
    else .fault m x.illegal)) s

/-- LSCLR -/
def execLsclr (n : Nat) (f : RFmt) (s : State) : Host.Outcome State Fault Refusal :=
  run (fun m => m.issue n (.r 0x85#8 f) (fun m x =>
    if penOk f && regsOk f .la .any .any .any then
      if m.laBusy x f.d.toNat then .hold else .next (m.upd x (fun e => e.setLa f.d.toNat {}))
    else .fault m x.illegal)) s

/-- The 96 bytes of a long accumulator (R127). -/
def LongAcc.bytes (a : LongAcc) : List Nat :=
  leBytes 80 (a.v % 2 ^ 640).toNat ++ leBytes 8 a.n ++ [b2n a.nan + 2 * b2n a.pinf + 4 * b2n a.ninf + 8 * b2n a.ovf] ++ List.replicate 7 0

/-- The long accumulator that 96 bytes hold (R127). -/
def LongAcc.ofBytes (b : List Nat) : LongAcc :=
  let fl := field b 88 1
  { v := wrap640 (field b 0 80), n := field b 80 8, nan := bitAt fl 0, pinf := bitAt fl 1, ninf := bitAt fl 2, ovf := bitAt fl 3 }

/-- LSST -/
def execLsst (n : Nat) (f : RFmt) (s : State) : Host.Outcome State Fault Refusal :=
  run (fun m => m.issue n (.r 0x86#8 f) (fun m x =>
    if penOk f && regsOk f .la .s .any .any then
      let off := (x.s f.a).toNat
      if m.laBusy x f.d.toNat then .hold
      else m.using x [{ off, n := 96, align := 32, wr := true }] (.next (m.putEs x off (x.e.getLa f.d.toNat).bytes))
    else .fault m x.illegal)) s

/-- LSLD -/
def execLsld (n : Nat) (f : RFmt) (s : State) : Host.Outcome State Fault Refusal :=
  run (fun m => m.issue n (.r 0x87#8 f) (fun m x =>
    if penOk f && regsOk f .la .s .any .any then
      let off := (x.s f.a).toNat
      if m.laBusy x f.d.toNat then .hold
      else m.using x [{ off, n := 96, align := 32 }] (.next (m.upd x (fun e => e.setLa f.d.toNat (LongAcc.ofBytes (m.esBytes x off 96)))))
    else .fault m x.illegal)) s

/-- The readout of a long accumulator in a format and mode: bits and class (R126). -/
def readout (a : LongAcc) (t : Fmt) (mode : RMode) (draw : Nat) : Val × Nat × ConvClass :=
  let v := roundZA .rod 0 a.value
  (v, t.convert mode false draw v)

/-- LSRD -/
def execLsrd (n : Nat) (f : RFmt) (s : State) : Host.Outcome State Fault Refusal :=
  run (fun m => m.issue n (.r 0x88#8 f) (fun m x =>
    let w := f.mod.toNat
    let c := x.e.ctx
    if penOk f && regsOk f .s .la .any .s then
      if m.laBusy x f.a.toNat then .hold
      else
        match Fmt.ofCode (w % 16), RMode.ofCode (bitsOf w 7 3) with
        | some t, some mode =>
          if t = .b32 || t = .zf24 || t = .zf16 then
            let ro := x.recOff f.c
            m.using x (recAcc ro)
              (orElse m [x.eRange c.ebase mode, if mode = .sr then m.rngRefuse x else none]
                (let (v, b, cls) := readout (x.e.getLa f.a.toNat) t mode (if mode = .sr then x.key.draw c.ebase 0 else 0)
                 let r := (NumRec.start t 0xF mode false false c.opid c.step).note v cls
                 .next (((m.putS x f.d (BitVec.ofNat 64 b)).putRecord x.k ro r).putNstat x (r.nstat false false))))
          else .fault m (fmtBad 0xF (w % 16) false (bitsOf w 7 3) c.opid)
        | _, _ => .fault m (fmtBad 0xF (w % 16) false (bitsOf w 7 3) c.opid)
    else .fault m x.illegal)) s

/-- VRAND -/
def execVrand (n : Nat) (f : RFmt) (s : State) : Host.Outcome State Fault Refusal :=
  run (fun m => m.issue n (.r 0x89#8 f) (fun m x =>
    let c := x.e.ctx
    if penOk f && regsOk f .v .s .any .any then
      orElse m [x.eRange (c.ebase + 127) .rne, m.rngRefuse x]
        (let draw := fun i => zcg64 x.e.seed ((x.s f.a).toNat % 2 ^ 32) (c.ebase + i) c.step
         .next ((m.putV x f (fun i => if f.func.getLsbD 0 then (draw i >>> 32).setWidth 32 else (draw i).setWidth 32)).advanceE x))
    else .fault m x.illegal)) s

/-- The column c of n stored rows. -/
def columnVals (rd : Nat → Nat) (t : Fmt) (off stride n c : Nat) : List Val :=
  (List.range n).map (fun r => t.decode (readElem rd t (off + r * stride) c))

/-- The effect of VROTC: columns of active lanes are rotated and converted in place (R158, R205, R222). -/
def vrotcRes (m : Mod) (x : Iss) (f : RFmt) (t : Fmt) (mode : RMode) (rlog off stride : Nat) (ro : Option Nat) : Res :=
  let n := 2 ^ rlog
  let c := x.e.ctx
  let rd := m.es x.k
  let cols := (List.range 128).map (fun j =>
    if x.active f j then
      rotateRun x.e.seed ((x.s f.b).toNat % 2 ^ 32) ((x.s f.b).toNat / 2 ^ 32) rlog (x.s f.d).toNat (columnVals rd t off stride n j)
    else [])
  let draw := fun (r j : Nat) => if mode = .sr then x.key.draw (c.ebase + 128 * r + j) 0 else 0
  let step := fun (st : Mod × NumRec) (r : Nat) =>
    let outs := cols.zipIdx.map (fun (col, j) => if x.active f j then some (col.getD r .nan, t.convert mode false (draw r j) (col.getD r .nan)) else none)
    let m := st.1.putEsPairs x (packElems (st.1.es x.k) t (off + r * stride) 0 (outs.map (·.map (·.2.1))))
    (m, outs.foldl (fun k o => match o with
      | some (v, _, cls) => k.note v cls
      | none => k) st.2)
  let (m, cnt) := (List.range n).foldl step (m, NumRec.start t t.code mode false false c.opid c.step)
  .next ((m.putRecord x.k ro cnt).putNstat x (cnt.nstat false false))

/-- VROTC. DEDUCED, log entry 39. -/
def execVrotc (n : Nat) (f : RFmt) (s : State) : Host.Outcome State Fault Refusal :=
  run (fun m => m.issue n (.r 0x8A#8 f) (fun m x =>
    let w := f.mod.toNat
    let rlog := w % 16
    let c := x.e.ctx
    if penOk f && regsOk f .s .s .s .s then
      if rlog < 5 || rlog > 8 || (x.s f.d).toNat % 2 ^ rlog ≠ 0 then .fault m (smodeBad 0 (bitsOf w 4 4) c.opid)
      else
        match Fmt.ofCode (bitsOf w 4 4), RMode.ofCode (bitsOf w 8 3) with
        | some t, some mode =>
          if t = .b32 || t = .zf16 then
            let off := (x.s f.a).toNat
            let stride := f.func.toNat * 64
            let ro := x.recOff f.c
            let rows := List.range (2 ^ rlog)
            m.using x (rows.map (fun r => ({ off := off + r * stride, n := t.bytes 128, align := 64 } : Acc))
                       ++ rows.map (fun r => ({ off := off + r * stride, n := t.bytes 128, align := 64, wr := true } : Acc)) ++ recAcc ro)
              (orElse m [if mode = .sr then x.eRange (c.ebase + 128 * 2 ^ rlog - 1) .sr else none, m.rngRefuse x]
                (vrotcRes m x f t mode rlog off stride ro))
          else .fault m (fmtBad (bitsOf w 4 4) (bitsOf w 4 4) false (bitsOf w 8 3) c.opid)
        | _, _ => .fault m (fmtBad (bitsOf w 4 4) (bitsOf w 4 4) false (bitsOf w 8 3) c.opid)
    else .fault m x.illegal)) s

end Sys2Proof.Machine
end

