-- ==== Sys2Proof/Machine/Optim.lean ====
section
/-! DEFINITION. The optimiser instructions as a computation on one parameter: the descriptor (R267, R268) and the arithmetic of R270, R276. -/
namespace Sys2Proof.Machine

/-- The three update instructions (R221). -/
inductive OptOp where
  | m2 | m1 | sgn
  deriving DecidableEq, Repr, Inhabited

/-- An OPT.* descriptor (R267). -/
structure OptDesc where
  rows : Nat
  master : Nat
  mom1 : Nat
  mom1Sc : Nat
  mom2 : Nat
  mom2Sc : Nat
  grad : Nat
  gradSc : Nat
  work : Nat
  workSc : Nat
  upd : Nat
  updSc : Nat
  led1 : Nat
  led2 : Nat
  ledW : Nat
  ledU : Nat
  smode1 : Nat
  smode2 : Nat
  smodeW : Nat
  smodeG : Nat
  rMaster : Nat
  rMom : Nat
  rWork : Nat
  rUpd : Nat
  csrc : Bool
  updEn : Bool
  updZg : Bool
  strict : Bool
  u : Int
  smodeU : Nat
  lr : Val
  b1 : Val
  ob1 : Val
  b2 : Val
  ob2 : Val
  eps : Val
  wd : Val
  bc1 : Val
  bc2 : Val
  clip : Val
  recOff : Nat
  recNone : Bool
  deriving DecidableEq, Repr

/-- Reads a descriptor from its 128 bytes (R267). -/
def OptDesc.ofBytes (b : List Nat) : OptDesc :=
  let f := field b
  let o := fun i => bitsOf (f i 4) 0 22
  let h := fun i => Fmt.b32.decode (f (64 + 4 * i) 4)
  { rows := bitsOf (f 0 4) 0 9, master := o 4, mom1 := o 8, mom1Sc := o 12, mom2 := o 16, mom2Sc := o 20, grad := o 24, gradSc := o 28,
    work := o 32, workSc := o 36, upd := o 40, updSc := o 44, led1 := f 48 2, led2 := f 50 2, ledW := f 52 2, ledU := f 54 2,
    smode1 := bitsOf (f 56 1) 0 3, smode2 := bitsOf (f 56 1) 3 3, smodeW := bitsOf (f 57 1) 0 3, smodeG := bitsOf (f 57 1) 3 3,
    rMaster := bitsOf (f 58 1) 0 3, rMom := bitsOf (f 58 1) 3 3, rWork := bitsOf (f 59 1) 0 3, rUpd := bitsOf (f 59 1) 3 3,
    csrc := bitAt (f 60 1) 0, updEn := bitAt (f 60 1) 1, updZg := bitAt (f 60 1) 2, strict := bitAt (f 60 1) 3,
    u := signedOf 8 (f 61 1), smodeU := bitsOf (f 62 1) 0 3,
    lr := h 0, b1 := h 1, ob1 := h 2, b2 := h 3, ob2 := h 4, eps := h 5, wd := h 6, bc1 := h 7, bc2 := h 8, clip := h 9,
    recOff := bitsOf (f 104 4) 0 22, recNone := bitAt (f 104 4) 31 }

/-- ROW or LEDGER. -/
def rowOrLedger (m : Nat) : Bool := m = 2 || m = 3

/-- RNE or SR, or a reserved code, which is refused as a code and not as a field (R71). -/
def rneOrSr (r : Nat) : Bool := r = 0 || r = 5 || r = 6 || r = 7

/-- A rounding field that the instruction uses holds a reserved code (R71, R221). -/
def OptDesc.rReserved (d : OptDesc) : Option Nat :=
  ([d.rMaster, d.rMom, d.rWork] ++ (if d.updEn then [d.rUpd] else [])).find? (fun r => r = 6 || r = 7)

/-- The first bad field of a descriptor, as its byte (R268). CLIP may hold any value while CSRC = 1: DESIGN CHOICE, log entry 101. -/
def optDescBad (op : OptOp) (b : List Nat) : Option Nat :=
  let f := field b
  let d := OptDesc.ofBytes b
  let off := fun i => f i 4 ≥ 2 ^ 22
  let m2 := op == .m2
  let checks : List (Nat × Bool) :=
    [(0, f 0 4 ≥ 2 ^ 9 || d.rows = 0 || d.rows > 256), (4, off 4), (8, off 8), (12, off 12),
     (16, off 16 || (!m2 && f 16 4 ≠ 0)), (20, off 20 || (!m2 && f 20 4 ≠ 0)), (24, off 24), (28, off 28), (32, off 32), (36, off 36),
     (40, off 40 || (!d.updEn && f 40 4 ≠ 0)), (44, off 44 || (!d.updEn && f 44 4 ≠ 0)),
     (50, !m2 && d.led2 ≠ 0), (54, !d.updEn && d.ledU ≠ 0),
     (56, bitsOf (f 56 1) 6 2 ≠ 0 || !rowOrLedger d.smode1 || (if m2 then !rowOrLedger d.smode2 else d.smode2 ≠ 0)),
     (57, bitsOf (f 57 1) 6 2 ≠ 0 || !rowOrLedger d.smodeW),
     (58, bitsOf (f 58 1) 6 2 ≠ 0 || !rneOrSr d.rMaster || !rneOrSr d.rMom),
     (59, bitsOf (f 59 1) 6 2 ≠ 0 || !rneOrSr d.rWork || (if d.updEn then !rneOrSr d.rUpd else d.rUpd ≠ 0)),
     (60, bitsOf (f 60 1) 4 4 ≠ 0), (61, decide (d.u < -64) || decide (d.u > 63)),
     (62, bitsOf (f 62 1) 3 5 ≠ 0 || (if d.updEn then !rowOrLedger d.smodeU else d.smodeU ≠ 0)), (63, f 63 1 ≠ 0),
     (76, op == .m1 && f 76 4 ≠ 0), (80, op == .m1 && f 80 4 ≠ 0), (84, !m2 && f 84 4 ≠ 0),
     (92, !m2 && f 92 4 ≠ 0), (96, !m2 && f 96 4 ≠ 0),
     (104, bitsOf (f 104 4) 22 9 ≠ 0), (108, f 108 20 ≠ 0)]
  (checks.find? (·.2)).map (·.1)

/-- A scaled element as binary32, with VLDC's rules beyond binary32 (R270, R84, R86). -/
def dqB32 (v : Val) : Val := Fmt.b32.decode (Fmt.b32.convert .rne false 0 v).1

/-- sign(x) of R270. -/
def signVal (x : Val) : Val :=
  if x.isNan || x.isZero then x else Val.ofInt (if x.isNeg then -1 else 1)

/-- The inputs and outputs of one parameter's update. -/
structure OptVals where
  m : Val
  v : Val
  w : Val
  d : Val
  deriving DecidableEq, Repr

/-- The arithmetic of R270 on one parameter: gradient, first and second moment, master weight and the clip factor. -/
def optStep (op : OptOp) (k : OptDesc) (clip g m v w : Val) : OptVals :=
  let mul := mulB32 .rne
  let add := addB32 .rne
  let fma := fmaB32 .rne
  let g := mul (mul g clip) (Val.mk false 1 k.u)
  let (m', v', d) :=
    match op with
    | .m2 =>
      let m' := fma k.b1 m (mul k.ob1 g)
      let v' := fma k.b2 v (mul k.ob2 (mul g g))
      (m', v', mul k.lr (divB32 (mul m' k.bc1) (add (sqrtB32 (mul v' k.bc2)) k.eps)))
    | .m1 =>
      let m' := fma k.b1 m (mul k.ob1 g)
      (m', v, mul k.lr m')
    | .sgn =>
      let d := mul k.lr (signVal (fma k.b1 m (mul k.ob1 g)))
      (fma k.b2 m (mul k.ob2 g), v, d)
  let w' := fma k.wd.neg w w
  { m := m', v := v', d := d, w := add w' (mul d (Val.mk false 1 (-k.u))).neg }

/-- The norm n and the clip factor c from the long sum S and τ (R276); none when S has a flag set. -/
def clipOf (s : LongAcc) (tau : Val) : Option (Val × Val) :=
  if s.nan || s.pinf || s.ninf || s.ovf then none
  else
    let n := sqrtB32 (Fmt.b32.decode (Fmt.b32.convert .rne false 0 (roundZA .rod 0 s.value)).1)
    some (n, if Val.le n tau then Val.ofInt 1 else divB32 tau n)

end Sys2Proof.Machine
end

