-- ==== Sys2Proof/Machine/CollBase.lean ====
section
/-! DEFINITION. The collective engine's operations as such: descriptors and their checks (R413 to R415, R421, R423), the shard tree (R118, R416), conversion of results (R417), their end, good or bad (R426, R427), and the messages they send (R431). -/
namespace Sys2Proof.Machine

/-! Descriptors -/

/-- An operation descriptor (R413). -/
def CollDesc.ofBytes (b : List Nat) : CollDesc :=
  let f := field b
  let fl := f 1 1
  { op := f 0 1, direct := bitAt fl 0, tcsel := bitsOf fl 1 2, ragged := bitAt fl 3, tap := bitAt fl 4, irq := bitAt fl 5, stepBound := bitAt fl 6,
    waitEn := bitAt fl 7, tgt := f 2 1, sfmt := f 3 1, modes := f 4 1, cla := bitsOf (f 5 1) 0 4, ledger := f 6 2, src := f 8 8, dst := f 16 8,
    srcSc := f 24 8, dstSc := f 32 8, count := bitsOf (f 40 8) 0 40, opid := f 48 4, step := f 52 4, ebase := f 56 8, root := f 64 2, tag := f 68 4,
    aux := f 72 8, waitC := f 80 2, waitT := f 82 6, sig := f 88 8, recAddr := bitsOf (f 96 8) 0 44, recNone := bitAt (f 96 8) 63 }

/-- Source and target formats; none where the code is reserved. -/
def CollDesc.srcFmt (d : CollDesc) : Option Fmt := Fmt.ofCode (d.sfmt % 16) (bitAt d.sfmt 4)
def CollDesc.tgtFmt (d : CollDesc) : Option Fmt := Fmt.ofCode (d.tgt % 16) (bitAt d.tgt 4)

def CollDesc.srcMode (d : CollDesc) : Nat := bitsOf d.sfmt 5 3
def CollDesc.tgtMode (d : CollDesc) : Nat := bitsOf d.modes 3 3

/-- The kinds of operations (R415). -/
def CollDesc.summing (d : CollDesc) : Bool := d.op = 1 || d.op = 3
def CollDesc.copying (d : CollDesc) : Bool := d.op = 2 || d.op = 4 || d.op = 5 || d.op = 8
def CollDesc.exact (d : CollDesc) : Bool := d.op = 9 || d.op = 10

/-- A SEND or RECV whose elements are converted on the way: the target differs from the source (R422). -/
def CollDesc.changes (d : CollDesc) : Bool := (d.op = 6 || d.op = 7) && d.tgt % 32 ≠ d.sfmt % 32

/-- The operation converts: it sums, or it is a SEND whose target differs from its source (R417, R422). -/
def CollDesc.converts (d : CollDesc) : Bool := d.summing || (d.op = 6 && d.changes)

/-- The scale mode in which an operation's output is written: its own target mode where elements are converted, else the source's, since elements
and scale bytes are copied (R420, R422). -/
def CollDesc.outMode (d : CollDesc) : Nat := if d.summing || d.changes then d.tgtMode else d.srcMode

/-- A format converts exactly to binary32, or is it (R82). -/
def exactToB32 (f : Fmt) : Bool := f = .b32 || convKind f .b32 = some .exact

/-- The table of R135 refuses a format with a scale mode. The reserved mode is refused under R130, with its own code. -/
def smodeBarred (f : Option Fmt) (mode : Nat) : Bool :=
  mode ≠ 7 && (match f with | some f => !smodeAllowed f mode | none => false)

/-- The byte of the first bad field of a descriptor, for L shards and M members (R414). Of an operation that copies, the target's scale mode and the
one that its elements are written with are both held against R135. DEDUCED, log entry 92. -/
def collDescBad (l mm : Nat) (b : List Nat) : Option Nat :=
  let f := field b
  let d := CollDesc.ofBytes b
  let checks : List (Nat × Bool) :=
    [(0, d.op = 0 || decide (10 < d.op)),
     (1, (d.ragged && decide (4 < d.op)) || (d.tap && !(d.op = 1 || d.exact))),
     (2, bitAt d.tgt 7 || (d.copying && d.tgt % 32 ≠ d.sfmt % 32)),
     (3, (d.summing && (match d.srcFmt with | some s => !exactToB32 s | none => false))
         || (!d.exact && !d.summing && !d.changes && smodeBarred d.tgtFmt d.srcMode)),
     (4, bitAt d.modes 7 || (!d.exact && smodeBarred d.tgtFmt d.tgtMode)),
     (5, bitsOf (f 5 1) 4 4 ≠ 0), (8, d.src ≥ 2 ^ 44), (16, d.dst ≥ 2 ^ 44), (24, d.srcSc ≥ 2 ^ 44), (32, d.dstSc ≥ 2 ^ 44),
     (40, f 40 8 ≥ 2 ^ 40 || d.count = 0 || (!d.exact && d.count % 128 ≠ 0)), (56, d.ebase ≥ 2 ^ 44),
     (64, (d.op = 5 && decide (l ≤ d.root)) || ((d.op = 6 || d.op = 7) && decide (mm ≤ d.root))), (66, f 66 2 ≠ 0), (72, d.aux ≥ 2 ^ 44),
     (88, bitsOf d.sig 33 7 ≠ 0), (96, bitsOf (f 96 8) 44 19 ≠ 0), (104, (b.drop 104).any (· ≠ 0))]
  (checks.find? (·.2)).map (·.1)

/-- The digest of the fields that must agree (R412). -/
def CollDesc.digest (d : CollDesc) (l : Nat) : Nat :=
  (Config.digest [d.op, d.count, l, d.root, d.tgt, d.sfmt, d.modes % 64, d.opid, d.step]).toNat

/-- Elements per chunk in which data travels between members. DESIGN CHOICE of the wire layout, log entry 25. -/
def collChunk : Nat := 4096

/-- The largest logical index an operation converts with (R417). -/
def CollDesc.topE (d : CollDesc) (l : Nat) : Nat := d.ebase + (if d.summing then l * d.count else d.count) - 1

/-- R82 lists the operation's conversion: a sum's from binary32 to the target, and a SEND's from its source to its target, as for VCVT. -/
def CollDesc.pairOk (d : CollDesc) (s t : Fmt) : Bool :=
  if d.summing then exactToB32 s && (t = .b32 || (convKind .b32 t).isSome) else (vcvtKind s t).isSome

/-- The refusals of the conversion, which keep their own codes: reserved formats and rounding codes, of every operation, and pairs (R71, R82),
reserved scale modes (R130), draws (R77, R263). FMT_UNSUPPORTED names the descriptor's two format codes and the target's UD, of a sum as well, whose
record names binary32 as its source. DESIGN CHOICE, log entry 88; that an operation which uses a field no further is refused for a reserved code in
it is DEDUCED, log entry 92. -/
def Mod.collNumBad (m : Mod) (c l : Nat) (d : CollDesc) : Option KFault :=
  let bad := fmtBad (d.sfmt % 16) (d.tgt % 16) (bitAt d.tgt 4) (d.modes % 8) d.opid
  match d.srcFmt, d.tgtFmt, RMode.ofCode (d.modes % 8) with
  | some s, some t, some r =>
    let mode := finalMode t (bitAt d.tgt 6) r
    if d.srcMode = 7 then some (smodeBad 7 s.code d.opid)
    else if d.tgtMode = 7 then some (smodeBad 7 t.code d.opid)
    else if !d.converts then none
    else if !d.pairOk s t || !t.allowsMode mode then some bad
    else if mode ≠ .sr then none
    else if !m.on pgRng then some { code := Ev.rngNotReady, d0 := c, d1 := d.opid, d3 := some 0x1FF }
    else if 2 ^ 44 ≤ d.topE l then some (srRange (d.topE l) 0 d.opid)
    else none
  | _, _, _ => some bad

/-! The group, and who hosts what -/

/-- An operation with its context, its group and this module's rank. -/
structure Coll where
  x : Context
  g : List Nat
  me : Nat
  d : CollDesc

def Mod.coll (m : Mod) (c : Nat) (d : CollDesc) : Coll :=
  let g := m.group (m.ctx c).axes
  { x := m.ctx c, g, me := rankOf g m.modid, d }

/-- The other members by rank. -/
def Coll.others (k : Coll) : List Nat := (List.range k.g.length).filter (· ≠ k.me)

def Coll.modOf (k : Coll) (rank : Nat) : Nat := k.g.getD rank 0
def Coll.hostOf (k : Coll) (i : Nat) : Nat := k.x.smap.getD i 0

/-- The shards hosted here, in ascending order (R415). -/
def Coll.hosted (k : Coll) (map : List Nat) : List Nat := (List.range k.x.shards).filter (fun i => map.getD i 0 = k.me)

/-- The host that forms node (a, lvl) of block j (R416). -/
def Coll.nodeHost (k : Coll) (a lvl j : Nat) : Nat :=
  let t := a + j % 2 ^ lvl
  k.hostOf (if k.x.shards ≤ t then a else t)

/-- Levels of the shard tree (R118). -/
def Coll.depth (k : Coll) : Nat := log2Ceil k.x.shards

/-- The chunks of a block and the elements of one. -/
def Coll.chunks (k : Coll) : Nat := ceilDiv k.d.count collChunk
def Coll.chunkLen (k : Coll) (ch : Nat) : Nat := min collChunk (k.d.count - ch * collChunk)

/-- Bytes of n elements, n a multiple of 128, and their scale bytes (R131, R602). -/
def codeBytes (mode n : Nat) : Nat := if mode = 1 then 1 else n / 128 * rowCodes mode 128

/-- Elements 4096 ch onwards of a part with their scale bytes, as they travel: a part's later elements do not exist (R421). -/
def Part.chunk (p : Part) (f : Fmt) (mode ch : Nat) : Nat × List Nat × List Nat :=
  let n := min collChunk (p.n - ch * collChunk)
  (n, (p.bytes.drop (f.bytes (ch * collChunk))).take (f.bytes n),
   if mode = 1 then p.codes else (p.codes.drop (codeBytes mode (ch * collChunk))).take (codeBytes mode n))

/-- The elements that a leaf of n bytes carries in a format and scale mode. -/
def countOf (f : Fmt) (mode n : Nat) : Nat := (if mode = 1 then n - 1 else n) / max 1 (f.bytes 128 + if mode = 1 then 0 else rowCodes mode 128) * 128

/-- The exact values of elements with their codes (R129, R142). -/
def dequants (f : Fmt) (mode : Nat) (bytes codes : List Nat) (n : Nat) : List Val :=
  let rd := fun i => bytes.getD i 0
  let rc := fun i => codes.getD i 0x60
  (List.range n).map (fun i => applyCode (f.decode (readElem rd f 0 i)) (scaleCode rc mode 0 (rowCodes mode 128) (i / 128) (i % 128)))

/-- A dequantised value as a leaf: binary32, where one beyond the finite range enters as an infinity (R416). -/
def leafB32 (v : Val) : Val := Fmt.b32.decode (Fmt.b32.convert .rne true 0 v).1

/-- The values of elements with their codes, as leaves (R63, R416). -/
def leafVals (f : Fmt) (mode : Nat) (bytes codes : List Nat) (n : Nat) : List Val := (dequants f mode bytes codes n).map leafB32

/-- Fills a leaf with +0 (R120, R421). -/
def padZero (n : Nat) (l : List Val) : List Val := l ++ List.replicate (n - l.length) Val.zero

/-- The source format of an accepted operation, and its target. -/
def CollDesc.s (d : CollDesc) : Fmt := d.srcFmt.getD .b32
def CollDesc.t (d : CollDesc) : Fmt := d.tgtFmt.getD .b32

/-- The value of a node for one chunk of a block, where this module has it or can form it (R118, R119, R416). -/
def CollOp.node (op : CollOp) (k : Coll) (j ch : Nat) : Nat → Nat → Option (List Val)
  | lvl, a =>
    let len := k.chunkLen ch
    let got := fun (lvl : Nat) => (op.nodes.find? (fun x => x.1 = ⟨lvl, a, j, ch⟩)).map (fun x =>
      if lvl = 0 then
        let n := countOf k.d.s k.d.srcMode x.2.length
        padZero len (leafVals k.d.s k.d.srcMode (x.2.take (k.d.s.bytes n)) (x.2.drop (k.d.s.bytes n)) n)
      else (List.range len).map (fun i => Fmt.b32.decode (ofLe ((x.2.drop (4 * i)).take 4))))
    if k.x.shards ≤ a then some (List.replicate len Val.zero)
    else
      match lvl with
      | 0 =>
        if k.hostOf a = k.me then
          (op.parts.find? (fun p => p.i = a && p.j = j)).map (fun p =>
            let (n, bs, cs) := p.chunk k.d.s k.d.srcMode ch
            padZero len (leafVals k.d.s k.d.srcMode bs cs n))
        else got 0
      | l + 1 =>
        if k.nodeHost a (l + 1) j = k.me then
          match CollOp.node op k j ch l a, CollOp.node op k j ch l (a + 2 ^ l) with
          | some u, some v => some (List.zipWith (addB32 .rne) u v)
          | _, _ => none
        else got (l + 1)

/-- Every node that a module sends to, or receives from, another one: those whose host and whose parent's host differ (R416), in the order chunk, block,
level, subtree. `mine` says of the two hosts whether the node concerns this module. -/
def Coll.crossing (k : Coll) (mine : Nat → Nat → Bool) : List NodeKey :=
  ((List.range k.chunks).map (fun ch => ((List.range k.x.shards).map (fun j => ((List.range k.depth).map (fun lvl =>
    (List.range (ceilDiv k.x.shards (2 ^ lvl))).filterMap (fun s =>
      let a := s * 2 ^ lvl
      let from' := k.nodeHost a lvl j
      let dest := k.nodeHost (a - a % 2 ^ (lvl + 1)) (lvl + 1) j
      if from' ≠ dest && mine from' dest then some ⟨lvl, a, j, ch⟩ else none))).flatten)).flatten)).flatten

/-- The host of a node's parent. -/
def Coll.parentHost (k : Coll) (n : NodeKey) : Nat := k.nodeHost (n.a - n.a % 2 ^ (n.lvl + 1)) (n.lvl + 1) n.j

/-- The bytes by which a node travels: a leaf in its source format with its scale bytes, another node as binary32 (R416). -/
def CollOp.nodeBytes (op : CollOp) (k : Coll) (n : NodeKey) : Option (List Nat) :=
  if n.lvl = 0 then
    (op.parts.find? (fun p => p.i = n.a && p.j = n.j)).map (fun p =>
      let (_, bs, cs) := p.chunk k.d.s k.d.srcMode n.ch
      bs ++ cs)
  else (op.node k n.j n.ch n.lvl n.a).map (fun l => (l.map (fun v => leBytes 4 (Fmt.b32.encode v))).flatten)

/-! Messages -/

/-- NODE of a message with final elements, and of one with their scale bytes; no node that travels has these (R431; log entry 25). -/
def nodeFinal : Nat := 0xFFFF
def nodeCodes : Nat := 0xFFFE

/-- Sends a COLL message to a member (R431): TC by TCSEL; DIRECT to a member one hop away or as the descriptor says. One to the module itself stays
in the collective engine and does not enter the router (R44). -/
def Mod.collPost (m : Mod) (o : Owner) (k : Coll) (c rank kind digest idx node addr : Nat) (data : List Nat) : Mod :=
  let dst := k.modOf rank
  let arg := collArg c kind digest idx node
  if dst = m.modid then
    let x : InMsg := { src := dst, seq := 0, inc := 0, type := tyColl, addr := addr % 2 ^ 44, arg, cnt := 1, slice := m.sliceId, got := [(0, data)] }
    { m with ce := { m.ce with own := m.ce.own ++ [(o, x)] } }
  else m.post o dst tyColl (2 + k.d.tcsel) (k.d.direct || m.oneHop dst) (addr % 2 ^ 44) arg data

/-- A message of an operation that is in flight. -/
def Mod.opSend (m : Mod) (op : CollOp) (k : Coll) (rank kind node addr : Nat) (data : List Nat) : Mod :=
  m.collPost (.coll op.ctx op.idx) k op.ctx rank kind op.digest op.idx node addr data

/-! The end of an operation -/

def Mod.setOp (m : Mod) (op : CollOp) : Mod :=
  { m with ce := { m.ce with ops := m.ce.ops.map (fun o => if o.ctx = op.ctx && o.idx = op.idx then op else o) } }

/-- DONE passes every leading completed operation (R405). -/
def ctxDone : Nat → Context → Context
  | 0, x => x
  | n + 1, x => if x.finished.contains x.doneIdx then ctxDone n { x with finished := x.finished.filter (· ≠ x.doneIdx), doneIdx := (x.doneIdx + 1) % 2 ^ 32 } else x

/-- A context that drains is DISABLED once none of its operations is in flight; what it held is discarded (R284, R408). -/
def Mod.ctxDrained (m : Mod) (c : Nat) : Mod :=
  if (m.ctx c).state = .draining && !m.ce.ops.any (fun o => o.ctx = c) then
    let m := m.setCtx c { m.ctx c with state := .disabled }
    { m with ce := { m.ce with held := m.ce.held.filter (fun x => x.arg % 256 ≠ c), readies := m.ce.readies.filter (fun r => r.ctx ≠ c) } }
  else m

/-- An operation is over: it leaves the engine, DONE follows, and what its messages meet concerns nobody any more. -/
def Mod.opOver (m : Mod) (c idx n : Nat) : Mod :=
  let m := { m with ce := { m.ce with ops := m.ce.ops.filter (fun o => !(o.ctx = c && o.idx = idx)),
                                      own := m.ce.own.map (fun (x : Owner × InMsg) => if x.1 = Owner.coll c idx then (.none, x.2) else x) },
                    rt := { m.rt with msgs := m.rt.msgs.map (fun (x : Msg) => if x.owner = Owner.coll c idx then { x with owner := .none } else x) } }
  let x := m.ctx c
  let x := { x with finished := x.finished ++ [idx], ops := (x.ops + n) % 2 ^ 32 }
  (m.setCtx c (ctxDone x.finished.length x)).ctxDrained c

/-- The address of a completion record (R405). -/
def Context.recAt (x : Context) (idx : Nat) : Nat := x.cring + 32 * (idx % 2 ^ x.rlog)

/-- Ends an operation in error (R427): record with FAULT, halt, abort messages unless an abort ended it, step health, MSI-X. DONE passes it. DEDUCED,
log entry 26. -/
def Mod.opFail (m : Mod) (op : CollOp) (code eng : Nat) (abort : Bool) : Mod :=
  let k := m.coll op.ctx op.desc
  let m := m.put .coll (k.x.recAt op.idx) (recordBytes op.idx true false false false code op.start m.time eng k.g.length)
  let x := m.ctx op.ctx
  let m := m.setCtx op.ctx { x with errCode := code, errIdx := op.idx, state := if x.state = .active then .halted else x.state }
  let m := if abort then m.each k.others (fun m r => m.collPost .none k op.ctx r 3 op.digest op.idx 0 0 (leBytes 2 code)) else m
  let m := if op.desc.stepBound then m.health op.desc.step shColl else m
  let m := if x.irqHalt then m.msix x.msix else m
  (m.bump pgColl 0x184 1).opOver op.ctx op.idx 0

/-- Ends an operation with an event of R441. -/
def Mod.opBad (m : Mod) (op : CollOp) (code d1 d2 eng : Nat) : Mod := (m.emit pgColl code op.idx d1 d2 op.ctx).opFail op code eng true

/-- This module's rank in the operation's group. -/
def Mod.rankIn (m : Mod) (op : CollOp) : Nat := (m.coll op.ctx op.desc).me

/-- A local access was refused, poisoned or filtered (R427). -/
def Mod.opMem (m : Mod) (op : CollOp) (a : Nat) : Mod := m.opBad op Ev.collMemError (a % 2 ^ 32) (a / 2 ^ 32) (m.rankIn op)

/-- A conversion error with its own code and event (R95, R164). -/
def Mod.opNum (m : Mod) (op : CollOp) (f : KFault) : Mod :=
  let m := if f.said then m else m.emit pgColl f.code f.d0 f.d1 f.d2 (f.d3.getD op.ctx)
  m.opFail op f.code (m.rankIn op) true

/-! Input and output -/

/-- Reads a list of regions one after the other; answers their bytes or the first address that failed. -/
def Mod.loadAll (m : Mod) : List (Nat × Nat) → Mod × Except Nat (List (List Nat))
  | [] => (m, .ok [])
  | (a, n) :: t =>
    match m.load .coll a n with
    | (m, .ok bs) =>
      match m.loadAll t with
      | (m, .ok rest) => (m, .ok (bs :: rest))
      | (m, .error x) => (m, .error x)
    | (m, .refused x _) => (m, .error x)
    | (m, .poisoned x) => (m, .error x)

/-- Writes a list of regions; answers the first address that was refused. -/
def Mod.storeAll (m : Mod) : List (Nat × List Nat) → Mod × Option Nat
  | [] => (m, none)
  | (a, bs) :: t =>
    match m.store .coll a bs false with
    | (m, none) => m.storeAll t
    | (m, some x) => (m, some x)

/-- Where elements from index o on of the output go, and their scale bytes (R131, R602). -/
def CollDesc.place (d : CollDesc) (f : Fmt) (mode o : Nat) (bytes codes : List Nat) : List (Nat × List Nat) :=
  (if bytes.isEmpty then [] else [(d.dst + f.bytes o, bytes)])
  ++ if codes.isEmpty then [] else [(d.dstSc + if mode = 1 then 0 else codeBytes mode o, codes)]

/-- Rows of values converted to the target: their bytes, scale bytes, rows and what the quantiser carries on (R417). -/
def quantRows (s : QSpec) : Nat → List (List Val) → QAcc → List DrainRow × QAcc
  | _, [], acc => ([], acc)
  | e, row :: t, acc =>
    let (blocks, acc) := quantRow s acc (row.zipIdx.map (fun (x, i) => { x, e := e + i }))
    let r : DrainRow := ⟨(blocks.map (·.bits)).flatten, blocks.map (·.code), []⟩
    let (rows, acc) := quantRows s (e + row.length) t acc
    (r :: rows, acc)

/-- The bytes of converted rows, and their scale bytes. -/
def rowsBytes (f : Fmt) (mode : Nat) (rows : List DrainRow) : List Nat × List Nat :=
  ((rows.map (fun r => (packElems (fun _ => 0) f 0 0 r.bits).map (·.2))).flatten,
   if (blockSize mode).isSome then (rows.map (fun r => r.codes.filterMap (fun z => z))).flatten else [])

/-- The quantiser of an operation (R417): the job seed its context latched, OPID and STEP, slot 0. -/
def Coll.spec (k : Coll) (tensor : Nat) : QSpec :=
  let d := k.d
  { tgt := d.t, smode := d.tgtMode, mode := finalMode d.t (bitAt d.tgt 6) ((RMode.ofCode (d.modes % 8)).getD .rne), strict := bitAt d.tgt 5,
    key := ⟨k.x.seed, d.opid, d.step⟩, tensor, step := d.step }

/-- The record before the first element: the source is binary32 for a sum, the source format for a SEND. -/
def Coll.record0 (k : Coll) : NumRec :=
  NumRec.start k.d.t (if k.d.summing then Fmt.b32.code else k.d.s.code) (k.spec 0).mode (bitAt k.d.tgt 6) (bitAt k.d.tgt 5) k.d.opid k.d.step

/-- How an operation uses the ledger. -/
def CollDesc.use (d : CollDesc) : LedgerUse := { init := .coll, page := pgColl, opid := d.opid, step := d.step }

/-- The code that a TENSOR target finds in its scale byte; 0xFF there refuses the operation (R602). -/
def Mod.collTensor (m : Mod) (d : CollDesc) : Mod × Except KFault Nat :=
  if d.tgtMode ≠ 1 then (m, .ok 0x60)
  else
    match m.load .coll d.dstSc 1 with
    | (m, .refused a _) => (m, .error { code := Ev.collMemError, addr := some a })
    | (m, .poisoned a) => (m, .error { code := Ev.collMemError, addr := some a })
    | (m, .ok z) => if z.getD 0 0x60 = 0xFF then (m, .error (smodeBad 1 d.t.code d.opid)) else (m, .ok (z.getD 0 0x60))

/-- Opens the ledger entries of an operation's blocks, LEDGER + b for block number b, one after another and before any element is converted; what was
opened before a refusal stays opened (R147). The entry of the b-th hosted shard is DEDUCED from R145, log entry 27. -/
def Mod.collOpen (d : CollDesc) : List Nat → Mod → Mod × Except KFault (List (Option LEntry))
  | [], m => (m, .ok [])
  | b :: t, m =>
    if d.tgtMode ≠ 3 then
      match Mod.collOpen d t m with
      | (m, .ok l) => (m, .ok (none :: l))
      | (m, .error f) => (m, .error f)
    else
      match m.ledgerOpen d.use (d.ledger + b) d.t with
      | (m, .error f) => (m, .error f)
      | (m, .ok o) =>
        match Mod.collOpen d t m with
        | (m, .ok l) => (m, .ok (some o.entry :: l))
        | (m, .error f) => (m, .error f)

/-- Converts one block of values, the first of logical index e0, under the TENSOR code or the opened entry of its block number b (R145, R148, R149). -/
def Mod.collConvert (m : Mod) (k : Coll) (tz b e0 : Nat) (entry : Option LEntry) (vals : List Val) (rec : NumRec) :
    Mod × Except KFault (List DrainRow × NumRec) :=
  let (rs, acc) := quantRows (k.spec tz) e0 (chunksOf 128 vals.length vals) { cnt := rec, entry }
  match Mod.ledgerCloses k.d.use (acc.entry.toList.map (fun e => (k.d.ledger + b, acc.ovrs, e))) m with
  | (m, some f) => (m, .error f)
  | (m, none) => (m, .ok (rs, acc.cnt))

/-- Writes the numeric record of an operation unless REC_NONE (R90, R417); a written record whose counts are held is reported (R95). -/
def Mod.collRec (m : Mod) (d : CollDesc) (r : NumRec) : Mod × Option Nat :=
  if d.recNone then (m, none)
  else
    match m.store .coll d.recAddr r.bytes false with
    | (m, some a) => (m, some a)
    | (m, none) => (if r.cntSat then m.emit pgColl Ev.numCountSat r.opid r.step 0 0 else m, none)

end Sys2Proof.Machine
end

