-- ==== Sys2Proof/Machine/CollRun.lean ====
section
/-! DEFINITION. The collective engine at work: the start of an operation (R411 to R415, R421 to R424), its progress as grants and data come in (R416 to R424, R432), and the messages that reach it (R412, R422, R427). -/
namespace Sys2Proof.Machine

/-! Final data: what each member expects from the others (R415) -/

/-- The index in a member's output, before packing, of block i of hosted shard number b (R415). -/
def Coll.outIndex (k : Coll) (b i : Nat) : Nat :=
  match k.d.op with
  | 4 => (b * k.x.shards + i) * k.d.count
  | 8 => b * k.d.count
  | 5 => 0
  | _ => i * k.d.count

/-- The pieces of a copying operation that this module sends: part, rank, index in the receiver's output. A block for every member goes to those that
have it straight from here (R430). -/
def CollOp.copies (op : CollOp) (k : Coll) (nexts : List Nat) : List (Part × Nat × Nat) :=
  (op.parts.map (fun p =>
    match k.d.op with
    | 4 =>
      let r := k.hostOf p.j
      let b := ((List.range k.x.shards).filter (fun s => k.hostOf s = r)).findIdx (· = p.j)
      [(p, r, k.outIndex b p.i)]
    | 8 =>
      let r := op.newMap.getD p.i 0
      let b := ((List.range k.x.shards).filter (fun s => op.newMap.getD s 0 = r)).findIdx (· = p.i)
      [(p, r, k.outIndex b p.i)]
    | _ => nexts.map (fun r => (p, r, k.outIndex 0 p.i)))).flatten

/-- The blocks of this module's output: for each the shard it comes from, the rank that supplies it and its index before packing. -/
def CollOp.wants (op : CollOp) (k : Coll) : List (Nat × Nat × Nat) :=
  let all := List.range k.x.shards
  match k.d.op with
  | 2 => all.map (fun i => (i, k.hostOf i, k.outIndex 0 i))
  | 3 => all.map (fun j => (j, k.hostOf j, k.outIndex 0 j))
  | 4 => ((k.hosted k.x.smap).zipIdx.map (fun (_, b) => all.map (fun i => (i, k.hostOf i, k.outIndex b i)))).flatten
  | 5 => [(k.d.root, k.hostOf k.d.root, 0)]
  | 8 => (k.hosted op.newMap).zipIdx.map (fun (i, b) => (i, k.hostOf i, k.outIndex b i))
  | _ => []

/-- The format of an operation's final data, and the scale mode in which it travels: of a sum the target's, whose TENSOR byte every module has of its
own (R417, R420, R602). -/
def CollDesc.finalFmt (d : CollDesc) : Fmt := if d.op = 3 then d.t else d.s
def CollDesc.finalMode (d : CollDesc) : Nat := if d.op = 3 then (if d.tgtMode = 1 then 0 else d.tgtMode) else d.srcMode

/-- Scale bytes travel with the elements. -/
def CollDesc.codesTravel (d : CollDesc) : Bool := decide (codeBytes d.finalMode 128 ≠ 0)

/-- The data of chunk ch of a wanted block, once it is here: elements, their bytes and their scale bytes. -/
def CollOp.final (op : CollOp) (k : Coll) (own : Option Part) (rank o ch : Nat) : Option (Nat × List Nat × List Nat) :=
  let f := k.d.finalFmt
  match own with
  | some p => some (p.chunk f k.d.finalMode ch)
  | none =>
    let get := fun (node : Nat) => (op.finals.find? (fun x => x.origin = rank && x.node = node && x.addr = o + ch * collChunk)).map (·.data)
    match get nodeFinal, (if k.d.codesTravel then get nodeCodes else some []) with
    | some bs, some cs => some (bs.length / max 1 (f.bytes 128) * 128, bs, cs)
    | _, _ => none

/-- Sends the chunks of a part as final data to a member: elements, and scale bytes where there are any. DEDUCED, log entry 76. -/
def Mod.sendChunks (m : Mod) (op : CollOp) (k : Coll) (p : Part) (rank o : Nat) : Mod :=
  m.each (List.range k.chunks) (fun m ch =>
    let (_, bs, cs) := p.chunk k.d.finalFmt k.d.finalMode ch
    let m := m.opSend op k rank 0 nodeFinal (o + ch * collChunk) bs
    if k.d.codesTravel then m.opSend op k rank 0 nodeCodes (o + ch * collChunk) cs else m)

/-- The ranks to which this module passes on a block that starts at a rank (R430). -/
def Mod.nextRanks (m : Mod) (k : Coll) (origin : Nat) : List Nat := (m.nexts k.g (k.modOf origin)).map (rankOf k.g)

/-! Progress -/

/-- What an exact operation has to send at a level of its doubling: its own sum with what it has taken at lower levels (R424, R430). A partial sum from
rank a at level l is the node (l, a) of block and chunk 0. -/
def CollOp.partial' (op : CollOp) (k : Coll) (lvl : Nat) : Option LongAcc :=
  dblValue LongAcc.combine (fun x => (op.nodes.find? (fun y => y.1 = ⟨x.1, x.2, 0, 0⟩)).map (fun y => LongAcc.ofBytes y.2)) (dblIn k.g.length k.me) lvl op.sum

/-- The nodes that this module takes from others, and those that it forms for others, in order (R416, R430). -/
def Coll.nodesIn (k : Coll) : List NodeKey :=
  if k.d.exact then (dblIn k.g.length k.me).map (fun x => ⟨x.1, x.2, 0, 0⟩)
  else if k.d.summing then k.crossing (fun f t => t = k.me && f ≠ k.me) else []
def Coll.nodesOut (k : Coll) : List NodeKey :=
  if k.d.exact then (dblOut k.g.length k.me).map (fun x => ⟨x.1, k.me, 0, 0⟩)
  else if k.d.summing then k.crossing (fun f t => f = k.me && t ≠ k.me) else []

/-- The rank that sends a node here, and the one that takes a node of this module (R416, R430). -/
def Coll.nodeFrom (k : Coll) (n : NodeKey) : Nat := if k.d.exact then n.a else k.nodeHost n.a n.lvl n.j
def Coll.nodeTo (k : Coll) (n : NodeKey) : Nat :=
  if k.d.exact then (((dblOut k.g.length k.me).find? (fun x => x.1 = n.lvl)).map (·.2)).getD k.me else k.parentHost n

/-- The bytes of a node for another module, once it can be formed (R416, R424). -/
def CollOp.outBytes (op : CollOp) (k : Coll) (n : NodeKey) : Option (List Nat) :=
  if k.d.exact then (op.partial' k n.lvl).map (·.bytes) else op.nodeBytes k n

/-- A node that came has been taken into the next one. -/
def CollOp.taken (op : CollOp) (k : Coll) (n : NodeKey) : Bool :=
  if k.d.exact then (op.partial' k (n.lvl + 1)).isSome else (op.node k n.j n.ch (n.lvl + 1) (n.a - n.a % 2 ^ (n.lvl + 1))).isSome

/-- NODE of a node that travels (R431). -/
def NodeKey.field (n : NodeKey) : Nat := n.lvl % 16 + 16 * (n.a / 2 ^ n.lvl % 4096)

/-- Bytes of a scratch place: a chunk of binary32, or a leaf with its scale bytes. -/
def scratchPlace : Nat := 16448

/-- The scratch places that nodes granted and not yet taken hold (R432). -/
def CollOp.places (op : CollOp) (k : Coll) : List Nat := (op.granted.filter (fun g => !op.taken k g.1)).map (·.2)

/-- The places of a context's scratch that what is held for operations not yet read leaves (R412, R432). -/
def Mod.scratchRoom (m : Mod) (c : Nat) : Nat :=
  let held := (m.ce.held.filter (fun x => x.arg % 256 = c)).map (fun x => (x.got.map (fun g => g.2.length)).sum)
  ((m.ctx c).scrLen * 65536 - held.sum) / scratchPlace

/-- Grants scratch to the next nodes while it is free (R432). -/
def Mod.giveGrants (k : Coll) : List NodeKey → Mod → CollOp → Mod × CollOp
  | [], m, op => (m, op)
  | n :: t, m, op =>
    if op.granted.any (fun g => g.1 = n) then Mod.giveGrants k t m op
    else
      let used := op.places k
      if m.scratchRoom op.ctx ≤ used.length then (m, op)
      else
        match (List.range (used.length + 1)).find? (fun i => !used.contains (k.x.scr + i * scratchPlace)) with
        | none => (m, op)
        | some i =>
          let a := k.x.scr + i * scratchPlace
          let op := { op with granted := op.granted ++ [(n, a)] }
          Mod.giveGrants k t (m.opSend op k (k.nodeFrom n) 1 n.field a (leBytes 4 n.lvl ++ leBytes 4 n.a ++ leBytes 4 n.j ++ leBytes 4 n.ch)) op

/-- Sends the nodes that have been granted and can be formed (R416, R424, R432). -/
def Mod.sendNodes (k : Coll) : List (NodeKey × Nat) → Mod → CollOp → Mod × CollOp
  | [], m, op => (m, op)
  | (n, a) :: t, m, op =>
    if op.sent.contains n then Mod.sendNodes k t m op
    else
      match op.outBytes k n with
      | none => Mod.sendNodes k t m op
      | some bs => Mod.sendNodes k t (m.opSend op k (k.nodeTo n) 0 n.field a bs) { op with sent := n :: op.sent }

/-- The roots of the block of hosted shard j, where every chunk is there (R416). -/
def CollOp.roots (op : CollOp) (k : Coll) (j : Nat) : Option (List Val) :=
  let l := (List.range k.chunks).map (fun ch => op.node k j ch k.depth 0)
  if l.all (·.isSome) then some ((l.map (fun x => x.getD [])).flatten) else none

/-- Converts the roots of this module's blocks, each with its opened ledger entry, writes them, and with ALL_REDUCE sends them on their way to the other
members (R417 to R419, R430). -/
def Mod.formBlocks (k : Coll) (tz : Nat) (op : CollOp) : List ((Nat × Nat) × Option LEntry) → NumRec → Mod → Mod × Except KFault NumRec
  | [], r, m => (m, .ok r)
  | ((j, b), entry) :: t, r, m =>
    match m.collConvert k tz b (k.d.ebase + j * k.d.count) entry ((op.roots k j).getD []) r with
    | (m, .error f) => (m, .error f)
    | (m, .ok (rows, r)) =>
      let (bs, cs) := rowsBytes k.d.t k.d.tgtMode rows
      match m.storeAll (k.d.place k.d.t k.d.tgtMode ((if k.d.op = 3 then j else b) * k.d.count) bs cs) with
      | (m, some a) => (m, .error { code := Ev.collMemError, addr := some a })
      | (m, none) =>
        let m := if k.d.tap then
            { m with ce := { m.ce with cla := m.ce.cla.modify k.d.cla (fun acc =>
                ((rows.map (rowTaps k.d.t k.d.tgtMode)).flatten).foldl LongAcc.addVal acc) } }
          else m
        let p : Part := ⟨j, j, k.d.count, bs, cs⟩
        let m := if k.d.op = 3 then m.each (m.nextRanks k k.me) (fun m rank => m.sendChunks op k p rank (k.outIndex 0 j)) else m
        Mod.formBlocks k tz op t r m

/-- What precedes a conversion: the TENSOR code is read, and every ledger entry is opened (R147, R602). -/
def Mod.collReady (m : Mod) (d : CollDesc) (blocks : List Nat) : Mod × Except KFault (Nat × List (Option LEntry)) :=
  match m.collTensor d with
  | (m, .error f) => (m, .error f)
  | (m, .ok tz) =>
    match Mod.collOpen d blocks m with
    | (m, .error f) => (m, .error f)
    | (m, .ok l) => (m, .ok (tz, l))

/-- Forms, converts and writes this module's blocks and their record (R90, R417). -/
def Mod.formAll (m : Mod) (op : CollOp) (k : Coll) : Mod × Option KFault :=
  let mine := (k.hosted k.x.smap).zipIdx
  match m.collReady k.d (mine.map (·.2)) with
  | (m, .error f) => (m, some f)
  | (m, .ok (tz, entries)) =>
    match Mod.formBlocks k tz op (mine.zip entries) k.record0 m with
    | (m, .error f) => (m, some f)
    | (m, .ok r) =>
      match m.collRec k.d r with
      | (m, some a) => (m, some { code := Ev.collMemError, addr := some a })
      | (m, none) => (m, none)

/-- Ends an operation with a refusal met on the way. -/
def Mod.opStop (m : Mod) (op : CollOp) (f : KFault) : Mod :=
  if f.code = Ev.collMemError then m.opMem op (f.addr.getD 0) else m.opNum op f

/-- The output of an ALL_GATHER with ragged counts is packed, so that where a block goes is known only with the counts before it (R421). -/
def CollDesc.packed (d : CollDesc) : Bool := d.op = 2 && d.ragged

/-- What a copying operation writes once all its blocks are here: its own blocks, every block where the output is packed, and the counts of ragged
ones; other blocks have been written as they came (R389, R420, R421). -/
def CollOp.copyWrites (op : CollOp) (k : Coll) : Option (List (Nat × List Nat)) :=
  let own := fun (w : Nat × Nat × Nat) =>
    if w.2.1 ≠ k.me then none
    else op.parts.find? (fun p => p.i = w.1 && (k.d.op ≠ 4 || k.outIndex ((k.hosted k.x.smap).findIdx (· = p.j)) w.1 = w.2.2))
  let blocks := (op.wants k).map (fun w => ((List.range k.chunks).map (op.final k (own w) w.2.1 w.2.2), w))
  if !blocks.all (fun b => b.1.all (·.isSome)) then none
  else
    let got := blocks.map (fun b => (b.1.map (fun x => x.getD (0, [], [])), b.2))
    let sizes := got.map (fun b => (b.1.map (·.1)).sum)
    let starts := (got.zip sizes).foldl (fun (acc : List Nat × Nat) (x : (List (Nat × List Nat × List Nat) × Nat × Nat × Nat) × Nat) =>
      (acc.1 ++ [if k.d.packed then acc.2 else x.1.2.2.2], acc.2 + x.2)) ([], 0)
    let data := ((got.zip starts.1).filter (fun b => k.d.packed || b.1.2.2.1 = k.me)).map (fun (b, o) =>
      (b.1.zipIdx.map (fun (x, ch) => k.d.place k.d.finalFmt k.d.finalMode (o + ch * collChunk) x.2.1 x.2.2)).flatten)
    let h := (k.hosted k.x.smap).length
    let sizesAt := k.d.aux + 4 * (if k.d.op = 4 then h * k.x.shards else h)
    some (data.flatten ++ if k.d.ragged then [(sizesAt, (sizes.map (leBytes 4)).flatten)] else [])

/-- The sum of an exact operation is here: it is written, unless it came as final data, the cla is cleared, and a member that folded in has it sent
(R424, R430). -/
def Mod.sumDone (m : Mod) (op : CollOp) (k : Coll) (sum : LongAcc) : Mod :=
  match (if (dblFrom k.g.length k.me).isSome then (m, none) else m.store .coll k.d.dst sum.bytes false) with
  | (m, some a) => m.opMem op a
  | (m, none) =>
    let m := if k.d.tap then { m with ce := { m.ce with cla := m.ce.cla.set k.d.cla {} } } else m
    let m := m.each (dblTo k.g.length k.me).toList (fun m r => m.opSend op k r 0 nodeFinal 0 sum.bytes)
    m.setOp { op with total := some sum, written := true }

/-- The sum of an exact operation's group, once it is here (R424, R430). -/
def CollOp.groupSum (op : CollOp) (k : Coll) : Option LongAcc :=
  match dblFrom k.g.length k.me with
  | some r => (op.finals.find? (fun x => x.origin = r)).map (fun x => LongAcc.ofBytes x.data)
  | none => op.partial' k dblTop

/-- Takes an operation as far as what has come in allows. -/
def Mod.opGo (m : Mod) (op : CollOp) : Mod :=
  let k := m.coll op.ctx op.desc
  let (m, op) := Mod.giveGrants k k.nodesIn m op
  let (m, op) := Mod.sendNodes k op.grants m op
  if k.d.summing then
    if !op.formed && (k.hosted k.x.smap).all (fun j => (op.roots k j).isSome) then
      match m.formAll op k with
      | (m, some f) => m.opStop op f
      | (m, none) => m.setOp { op with formed := true, written := op.written || k.d.op = 1 }
    else m.setOp op
  else if k.d.exact then
    if op.written then m.setOp op
    else
      match op.groupSum k with
      | some sum => m.sumDone op k sum
      | none => m.setOp op
  else if k.d.copying && !op.written then
    match op.copyWrites k with
    | none => m.setOp op
    | some l =>
      match m.storeAll l with
      | (m, some a) => m.opMem op a
      | (m, none) => m.setOp { op with written := true }
  else m.setOp op

/-- An ALL_REDUCE that has formed its own blocks is written once the blocks of the other members are here, which were written as they came (R389,
R418). -/
def Mod.opGather (m : Mod) (op : CollOp) : Mod :=
  let k := m.coll op.ctx op.desc
  let theirs := (op.wants k).filter (fun w => w.2.1 ≠ k.me)
  if k.d.op = 3 && op.formed && !op.written && theirs.all (fun w => (List.range k.chunks).all (fun ch => (op.final k none w.2.1 w.2.2 ch).isSome)) then
    m.setOp { op with written := true }
  else m

def Mod.op? (m : Mod) (c idx : Nat) : Option CollOp := m.ce.ops.find? (fun o => o.ctx = c && o.idx = idx)

/-- Progress of an operation that is still in flight. -/
def Mod.opStep (m : Mod) (op : CollOp) : Mod :=
  let m := m.opGo op
  match m.op? op.ctx op.idx with
  | some o => m.opGather o
  | none => m

/-! SEND and RECV (R422) -/

/-- The bytes and scale bytes that a SEND delivers: where TGT differs from SFMT, the exact values go through one chain to the target, whose
intermediate is ZA float with ROD, and a record is written (R78, R422); else the elements are copied with their scale bytes, but for the one byte of a
TENSOR tensor, which a producer leaves as it is (R602). Log entry 92. -/
def Mod.sendData (m : Mod) (k : Coll) (p : Part) : Mod × Except KFault (List Nat × List Nat) :=
  if !k.d.converts then (m, .ok (p.bytes, if k.d.srcMode = 1 then [] else p.codes))
  else
    match m.collReady k.d [0] with
    | (m, .error f) => (m, .error f)
    | (m, .ok (tz, entries)) =>
      let vals := (dequants k.d.s k.d.srcMode p.bytes p.codes k.d.count).map (roundZA .rod 0)
      match m.collConvert k tz 0 k.d.ebase (entries.headD none) vals k.record0 with
      | (m, .error f) => (m, .error f)
      | (m, .ok (rows, rec)) =>
        match m.collRec k.d rec with
        | (m, some a) => (m, .error { code := Ev.collMemError, addr := some a })
        | (m, none) => (m, .ok (rowsBytes k.d.t k.d.tgtMode rows))

/-- A SEND that has met its ready message: a mismatch ends both sides; else its data goes out. -/
def Mod.sendGo (m : Mod) (op : CollOp) (r : Ready) : Mod :=
  let k := m.coll op.ctx op.desc
  let m := m.setOp { op with ready := some r }
  if r.count ≠ k.d.count || r.tgt ≠ k.d.tgt then
    let m := m.collPost .none k op.ctx r.rank 3 r.digest r.idx 0 0 (leBytes 2 Ev.collMismatch)
    m.opBad op Ev.collMismatch op.digest r.digest r.rank
  else
    match m.sendData k (op.parts.headD default) with
    | (m, .error f) => m.opStop op f
    | (m, .ok (bs, cs)) =>
      let dest := fun (m : Mod) (a : Nat) (data : List Nat) =>
        m.each ((chunksOf 65536 data.length data).zipIdx) (fun m (x, i) =>
          m.collPost (.coll op.ctx op.idx) k op.ctx r.rank 0 r.digest r.idx nodeFinal (a + 65536 * i) x)
      (dest (dest m r.dst bs) r.dstSc cs).setOp { op with ready := some r, written := true }

/-- The ready message is that of the RECV which a SEND matches: the k-th of its peer and tag (R422). -/
def Ready.suits (r : Ready) (op : CollOp) : Bool :=
  r.ctx = op.ctx && op.desc.op = 6 && op.desc.root = r.rank && op.desc.tag = r.tag && op.ord = r.ord

/-- A SEND or RECV takes the next ordinal of its peer and tag (R422). -/
def Mod.ordinal (m : Mod) (op : CollOp) : Mod × CollOp :=
  let x := m.ctx op.ctx
  let key := op.desc.root * 2 ^ 32 + op.desc.tag
  match op.desc.op with
  | 6 => (m.setCtxRaw op.ctx { x with sends := spWrite 0 x.sends key (spRead 0 x.sends key + 1) }, { op with ord := spRead 0 x.sends key })
  | 7 => (m.setCtxRaw op.ctx { x with recvs := spWrite 0 x.recvs key (spRead 0 x.recvs key + 1) }, { op with ord := spRead 0 x.recvs key })
  | _ => (m, op)

/-- Lets the SEND that a ready message matches proceed, or keeps the message (R422). -/
def Mod.takeReady (m : Mod) (r : Ready) : Mod :=
  match m.ce.ops.find? (fun o => r.suits o && o.ready.isNone) with
  | some op => m.sendGo op r
  | none => { m with ce := { m.ce with readies := m.ce.readies ++ [r] } }

/-! Messages that reach an operation -/

/-- The payload of a whole message. -/
def InMsg.data (x : InMsg) : List Nat := ((List.range x.cnt).map (fun k => ((x.got.find? (fun g => g.1 = k)).map (·.2)).getD [])).flatten

/-- Fields of the ARG of a COLL message (R431). -/
def InMsg.ctx (x : InMsg) : Nat := bitsOf x.arg 0 8
def InMsg.kind (x : InMsg) : Nat := bitsOf x.arg 8 8
def InMsg.digest (x : InMsg) : Nat := bitsOf x.arg 16 16
def InMsg.idx (x : InMsg) : Nat := bitsOf x.arg 32 16
def InMsg.node (x : InMsg) : Nat := bitsOf x.arg 48 16

/-- An abort reaches the operation (R427); the mismatch that a SEND reports to its RECV ends that one with the same code (R422). -/
def Mod.opAbort (m : Mod) (op : CollOp) (x : InMsg) : Mod :=
  let k := m.coll op.ctx op.desc
  let rank := rankOf k.g x.src
  let code := ofLe (x.data.take 2)
  if op.desc.op = 7 && code = Ev.collMismatch && rank = op.desc.root then m.opBad op Ev.collMismatch op.digest x.digest rank
  else (m.emit pgColl Ev.collPeerAbort op.idx x.src code op.ctx).opFail op Ev.collPeerAbort rank false

/-- Who writes a message's data: the fabric's initiator of R41 for a remote module's, the collective engine for the module's own (R44, R45). -/
def Mod.writer (m : Mod) (x : InMsg) : Init := if x.src = m.modid then .coll else .remote x.src

/-- Where the payload of a data message goes as it comes: a RECV's at its address, final data in the output, a node at the scratch address granted for
it; the blocks of a packed output wait (R389, R421, R432). -/
def CollOp.putAt (op : CollOp) (x : InMsg) : Option Nat :=
  let d := op.desc
  if x.kind ≠ 0 || x.digest ≠ op.digest then none
  else if d.op = 7 then some x.addr
  else if x.node = nodeFinal && d.exact then some d.dst
  else if x.node = nodeFinal || x.node = nodeCodes then
    if d.packed || !(d.copying || d.op = 3) then none
    else if x.node = nodeFinal then some (d.dst + d.finalFmt.bytes x.addr)
    else some (d.dstSc + if d.finalMode = 1 then 0 else codeBytes d.finalMode x.addr)
  else if op.granted.any (fun g => g.2 = x.addr) then some x.addr
  else none

/-- A packet of a data message is applied as it arrives, where its operation has been read; a refused write ends the operation and is the message's
status (R368, R389, R427). -/
def Mod.collPacket (m : Mod) (x : InMsg) (idx : Nat) (payload : List Nat) : Mod × InMsg :=
  match m.ce.ops.find? (fun o => o.ctx = x.ctx && o.idx % 65536 = x.idx) with
  | none => (m, x)
  | some op =>
    match op.putAt x with
    | none => (m, x)
    | some a =>
      match m.store (.remote x.src) (a + 1024 * idx) payload false with
      | (m, none) => (m, { x with put := idx :: x.put })
      | (m, some bad) => (m.opMem op bad, { x with status := 2 })

/-- Writes the payload of a data message that could not be written as it arrived; answers the first address that was refused. -/
def Mod.putRest (m : Mod) (op : CollOp) (x : InMsg) : Mod × Option Nat :=
  match op.putAt x with
  | none => (m, none)
  | some a =>
    (x.got.reverse.filter (fun g => !(x.put.contains g.1))).foldl (fun s g =>
      match s with
      | (m, none) => m.store (m.writer x) (a + 1024 * g.1) g.2 false
      | s => s) (m, none)

/-- A SEND's data has reached its RECV (R422). -/
def Mod.recvData (m : Mod) (op : CollOp) (x : InMsg) : Mod :=
  let d := op.desc
  let n := x.data.length
  let elems := d.t.bytes d.count
  let got := if d.dst ≤ x.addr && x.addr < d.dst + elems then (op.got.1 + n, op.got.2) else (op.got.1, op.got.2 + n)
  let codes := if d.outMode = 1 then 0 else codeBytes d.outMode d.count
  m.setOp { op with got, written := decide (elems ≤ got.1) && decide (codes ≤ got.2) }

/-- The rank from whose blocks final data comes (R415, R430). -/
def Coll.originOf (k : Coll) (x : InMsg) : Nat :=
  match k.d.op with
  | 2 => k.hostOf (x.addr / max 1 k.d.count)
  | 3 => k.hostOf (x.addr / max 1 k.d.count)
  | 5 => k.hostOf k.d.root
  | _ => rankOf k.g x.src

/-- Final data has come: it is passed on by the schedule of its operation (R415, R430). -/
def Mod.finalData (m : Mod) (op : CollOp) (k : Coll) (x : InMsg) : Mod :=
  let f : Final := { origin := k.originOf x, node := x.node, addr := x.addr, data := x.data }
  if op.finals.any (fun y => y.origin = f.origin && y.node = f.node && y.addr = f.addr) then m
  else
    let m := if k.d.op = 2 || k.d.op = 3 || k.d.op = 5 then
        m.each (m.nextRanks k f.origin) (fun m r => m.opSend op k r 0 f.node f.addr f.data)
      else m
    m.opStep { op with finals := op.finals ++ [f] }

/-- Data or a grant reaches the operation (R412, R416, R420, R422, R424, R432). Answers the status of the message (R368). -/
def Mod.opTake (m : Mod) (op : CollOp) (x : InMsg) : Mod × Nat :=
  let k := m.coll op.ctx op.desc
  if x.digest ≠ op.digest then (m.opBad op Ev.collMismatch op.digest x.digest (rankOf k.g x.src), 0)
  else if x.kind = 1 then
    let b := x.data
    (m.opStep { op with grants := op.grants ++ [(⟨field b 0 4, field b 4 4, field b 8 4, field b 12 4⟩, x.addr)] }, 0)
  else
    match m.putRest op x with
    | (m, some a) => (m.opMem op a, 2)
    | (m, none) =>
      if k.d.op = 7 then (m.recvData op x, 0)
      else if x.node = nodeFinal || x.node = nodeCodes then (m.finalData op k x, 0)
      else
        match op.granted.find? (fun g => (op.places k).contains g.2 && g.2 = x.addr && !op.nodes.any (fun n => n.1 = g.1)) with
        | some g => (m.opStep { op with nodes := op.nodes ++ [(g.1, x.data)] }, 0)
        | none => (m, 0)

/-- A COLL message is applied to its operation, held in scratch for one that has not been read, or dropped where its operation is over (R412). Answers
the status with which it ends (R368). -/
def Mod.collApply (m : Mod) (x : InMsg) : Mod × Nat :=
  let c := x.ctx
  if x.kind = 2 then
    let k := m.coll c {}
    let b := x.data
    (m.takeReady { ctx := c, rank := rankOf k.g x.src, idx := x.idx, ord := field b 32 4, digest := x.digest, tag := field b 0 4, count := field b 4 8,
                   tgt := field b 12 1, dst := field b 16 8, dstSc := field b 24 8 }, 0)
  else
    match m.ce.ops.find? (fun o => o.ctx = c && o.idx % 65536 = x.idx) with
    | some op => if x.kind = 3 then (m.opAbort op x, 0) else m.opTake op x
    | none =>
      (if (x.idx + 65536 - (m.ctx c).head % 65536) % 65536 < 32768 then { m with ce := { m.ce with held := m.ce.held ++ [x] } } else m, 0)

/-! The start of an operation -/

/-- The parts of the input: hosted shard, block, first element of the part in the input, elements (R415, R421). -/
def Coll.inputs (k : Coll) (counts : List Nat) : List (Nat × Nat × Nat × Nat) :=
  let e := k.d.count
  let l := k.x.shards
  let h := k.hosted k.x.smap
  match k.d.op with
  | 1 => (h.zipIdx.map (fun (i, b) => (List.range l).map (fun j => (i, j, (b * l + j) * e, if k.d.ragged then min e (counts.getD b 0 - j * e) else e)))).flatten
  | 3 => (h.zipIdx.map (fun (i, b) => (List.range l).map (fun j => (i, j, (b * l + j) * e, if k.d.ragged then min e (counts.getD b 0 - j * e) else e)))).flatten
  | 4 => (h.zipIdx.map (fun (i, b) => (List.range l).map (fun j => (i, j, (b * l + j) * e, if k.d.ragged then counts.getD (b * l + j) 0 else e)))).flatten
  | 2 => h.zipIdx.map (fun (i, b) => (i, 0, b * e, if k.d.ragged then counts.getD b 0 else e))
  | 5 => if h.contains k.d.root then [(k.d.root, 0, 0, e)] else []
  | 6 => [(0, 0, 0, e)]
  | 8 => h.zipIdx.map (fun (i, b) => (i, 0, b * e, e))
  | _ => []

/-- Bytes of the input and of the output in memory, for the test of overlap (R414). A module that hosts no shard has no input (R415). -/
def Coll.spans (k : Coll) (newMap : List Nat) : Nat × Nat :=
  let e := k.d.count
  let l := k.x.shards
  let h := (k.hosted k.x.smap).length
  match k.d.op with
  | 1 => (k.d.s.bytes (h * l * e), k.d.t.bytes (h * e))
  | 2 => (k.d.s.bytes (h * e), k.d.s.bytes (l * e))
  | 3 => (k.d.s.bytes (h * l * e), k.d.t.bytes (l * e))
  | 4 => (k.d.s.bytes (h * l * e), k.d.s.bytes (h * l * e))
  | 5 => (if (k.hosted k.x.smap).contains k.d.root then k.d.s.bytes e else 0, k.d.s.bytes e)
  | 8 => (k.d.s.bytes (h * e), k.d.s.bytes ((k.hosted newMap).length * e))
  | 9 => (if h = 0 then 0 else 96 * e, 96)
  | 10 => (if h = 0 then 0 else 96 * e, 96)
  | _ => (0, 0)

/-- Two regions overlap. -/
def overlap (a n b k : Nat) : Bool := decide (0 < n) && decide (0 < k) && decide (a < b + k) && decide (b < a + n)

/-- The tables that AUX names (R421, R423): where, and how many bytes. -/
def Coll.auxLen (k : Coll) : Nat :=
  let h := (k.hosted k.x.smap).length
  if k.d.ragged then 4 * (if k.d.op = 4 then h * k.x.shards else h) else if k.d.op = 8 then 2 * k.x.shards else 0

/-- The first moved shard whose old and new hosts lie in different blocks (R423). -/
def Coll.spanBad (k : Coll) (newMap : List Nat) : Option Nat :=
  let blk := fun (rank : Nat) => let c := coordOf (k.modOf rank); (c.x / 4, c.y / 4, c.z / 4)
  (List.range k.x.shards).find? (fun i => k.hostOf i ≠ newMap.getD i 0 && blk (k.hostOf i) ≠ blk (newMap.getD i 0))

/-- The regions that the parts of the input lie in. -/
def Coll.regions (k : Coll) (ins : List (Nat × Nat × Nat × Nat)) : List (Nat × Nat) :=
  let mode := k.d.srcMode
  (ins.map (fun p => [(k.d.src + k.d.s.bytes p.2.2.1, k.d.s.bytes p.2.2.2),
    (k.d.srcSc + (if mode = 1 then 0 else codeBytes mode p.2.2.1), if mode = 1 then 1 else codeBytes mode p.2.2.2)])).flatten

/-- The parts from the bytes of their regions. -/
def partsOf : List (Nat × Nat × Nat × Nat) → List (List Nat) → List Part
  | (i, j, _, n) :: t, b :: c :: r => ⟨i, j, n, b, c⟩ :: partsOf t r
  | _, _ => []

/-- What the operation does as it starts, once its input has been read. -/
def Mod.opBegin (m : Mod) (op : CollOp) : Mod :=
  let k := m.coll op.ctx op.desc
  let (m, op) := m.ordinal op
  let m := { m with ce := { m.ce with ops := m.ce.ops ++ [op] } }
  if k.d.copying then (m.each (op.copies k (m.nextRanks k k.me)) (fun m c => if c.2.1 = k.me then m else m.sendChunks op k c.1 c.2.1 c.2.2)).opStep op
  else if k.d.op = 6 then
    match m.ce.readies.find? (fun r => r.suits op) with
    | some r => { m with ce := { m.ce with readies := m.ce.readies.erase r } }.sendGo op r
    | none => m
  else if k.d.op = 7 then
    m.opSend op k k.d.root 2 0 0 (leBytes 4 k.d.tag ++ leBytes 8 k.d.count ++ leBytes 4 k.d.tgt ++ leBytes 8 k.d.dst ++ leBytes 8 k.d.dstSc
      ++ leBytes 4 op.ord)
  else m.opStep op

/-- Checks a descriptor that has been read, reads the operation's input and starts it; any failure ends it without a message of its own (R414, R421, R423). -/
def Mod.opStart (m : Mod) (c idx : Nat) (b : List Nat) : Mod :=
  let d := CollDesc.ofBytes b
  let k := m.coll c d
  let op : CollOp := { ctx := c, idx, desc := d, digest := d.digest k.x.shards, start := m.time }
  let bad := fun (byte : Nat) => m.opBad op Ev.collDescBad byte d.opid k.me
  match collDescBad k.x.shards k.g.length b with
  | some byte => bad byte
  | none =>
    match m.collNumBad c k.x.shards d with
    | some f => m.opNum op f
    | none =>
      match m.loadAll [(d.aux, k.auxLen)] with
      | (m, .error a) => m.opMem op a
      | (m, .ok t) =>
        let aux := t.headD []
        let counts := if d.ragged then (chunksOf 4 aux.length aux).map ofLe else []
        let newMap := if d.op = 8 then (chunksOf 2 aux.length aux).map ofLe else []
        let (nin, nout) := k.spans newMap
        if counts.any (fun x => decide (d.count < x) || x % 128 ≠ 0) || newMap.any (fun r => decide (k.g.length ≤ r)) then m.opBad op Ev.collDescBad 72 d.opid k.me
        else if overlap d.src nin d.dst nout then m.opBad op Ev.collDescBad 16 d.opid k.me
        else
          match (if d.op = 8 then k.spanBad newMap else none) with
          | some i => m.opBad op Ev.collPermuteSpan i (newMap.getD i 0) k.me
          | none =>
            let ins := k.inputs counts
            match m.loadAll (if d.exact then (if nin = 0 then [] else [(d.src, nin)]) else k.regions ins) with
            | (m, .error a) => m.opMem op a
            | (m, .ok data) =>
              let sum := (chunksOf 96 d.count (data.headD [])).foldl (fun acc x => acc.combine (LongAcc.ofBytes x)) (if d.tap then m.ce.cla.getD d.cla {} else {})
              m.opBegin { op with parts := if d.exact then [] else partsOf ins data, newMap, sum := if d.exact then sum else {} }

/-- The operation at HEAD may start: the one before it is over, or is a SEND or RECV (R411). -/
def Mod.opMay (m : Mod) (c : Nat) : Bool :=
  let x := m.ctx c
  match m.op? c ((x.head + 2 ^ 32 - 1) % 2 ^ 32) with
  | some o => o.desc.op = 6 || o.desc.op = 7
  | none => true

/-- The engine runs operations: its page is enabled and is not being disabled. -/
def Mod.ceRuns (m : Mod) : Bool := m.on pgColl && !(m.page pgColl).busy

/-- Reads the operation at HEAD and starts it, where it is of the row's kind and its wait is satisfied (R296, R411, R413); then the messages held for it are
applied (R412). A descriptor that cannot be read ends the operation (R427), and an OP that R415 does not list is met by any row. -/
def Mod.opRow (m : Mod) (code c : Nat) : Mod :=
  let x := m.ctx c
  if !m.ceRuns || x.state ≠ .active || !covered x.head x.tail || !m.opMay c then m
  else
    let idx := x.head
    let next := fun (m : Mod) => m.setCtx c { m.ctx c with head := (idx + 1) % 2 ^ 32 }
    match m.load .coll (x.ring + 128 * (idx % 2 ^ x.rlog)) 128 with
    | (m, .refused a _) => (next m).opMem { ctx := c, idx, desc := {}, digest := 0, start := m.time } a
    | (m, .poisoned a) => (next m).opMem { ctx := c, idx, desc := {}, digest := 0, start := m.time } a
    | (m, .ok b) =>
      let d := CollDesc.ofBytes b
      let listed := decide (0 < d.op) && decide (d.op ≤ 10)
      if (listed && d.op ≠ code) || (d.waitEn && decide (m.ctr d.waitC < d.waitT)) then m
      else
        let m := (next m).opStart c idx b
        let mine := m.ce.held.filter (fun h => h.ctx = c && h.idx = idx % 65536)
        let m := { m with ce := { m.ce with held := m.ce.held.filter (fun h => !(h.ctx = c && h.idx = idx % 65536)) } }
        m.each mine (fun m h => (m.collApply h).1)

end Sys2Proof.Machine
end

