-- ==== Sys2Proof/Machine/Collectives.lean ====
section
/-! DEFINITION. The commands of the collective engine: operations (R411 to R424), their completion and timeout (R426, R428), contexts and doorbells (R405 to R410, R438). -/
namespace Sys2Proof.Machine

/-! Operations -/

/-- REDUCE_SCATTER (R416, R417, R419) -/
def execReduceScatter (c : Nat) (s : State) : Host.Outcome State Fault Refusal := run (fun m => m.opRow 1 c) s

/-- ALL_GATHER (R420, R421) -/
def execAllGather (c : Nat) (s : State) : Host.Outcome State Fault Refusal := run (fun m => m.opRow 2 c) s

/-- ALL_REDUCE (R416 to R418) -/
def execAllReduce (c : Nat) (s : State) : Host.Outcome State Fault Refusal := run (fun m => m.opRow 3 c) s

/-- ALL_TO_ALL (R420, R421) -/
def execAllToAll (c : Nat) (s : State) : Host.Outcome State Fault Refusal := run (fun m => m.opRow 4 c) s

/-- BROADCAST (R420) -/
def execBroadcast (c : Nat) (s : State) : Host.Outcome State Fault Refusal := run (fun m => m.opRow 5 c) s

/-- SEND (R422) -/
def execSend (c : Nat) (s : State) : Host.Outcome State Fault Refusal := run (fun m => m.opRow 6 c) s

/-- RECV (R422) -/
def execRecv (c : Nat) (s : State) : Host.Outcome State Fault Refusal := run (fun m => m.opRow 7 c) s

/-- PERMUTE (R423) -/
def execPermute (c : Nat) (s : State) : Host.Outcome State Fault Refusal := run (fun m => m.opRow 8 c) s

/-- LSUM_ALL (R424) -/
def execLsumAll (c : Nat) (s : State) : Host.Outcome State Fault Refusal := run (fun m => m.opRow 9 c) s

/-- NORM (R424) -/
def execNorm (c : Nat) (s : State) : Host.Outcome State Fault Refusal := run (fun m => m.opRow 10 c) s

/-- The norm and the clip factor of a NORM are published (R276, R277, R424). -/
def Mod.publishNorm (m : Mod) (op : CollOp) : Mod :=
  m.publishClip op.desc.step ((clipOf (op.total.getD op.sum) (Fmt.b32.decode m.clip.tau)).map (fun x => (Fmt.b32.encode x.1, Fmt.b32.encode x.2)))

/-- An operation has sent every node that it is this module's to form for another one (R416, R430). DEDUCED, log entry 34. -/
def CollOp.nodesSent (op : CollOp) (k : Coll) : Bool := k.nodesOut.all (fun n => op.sent.contains n)

/-- A message that the operation sent is not acknowledged yet (R426). -/
def Mod.opWaits (m : Mod) (c idx : Nat) : Bool :=
  m.rt.msgs.any (fun x => x.owner = Owner.coll c idx) || m.ce.own.any (fun x => x.1 = Owner.coll c idx)

/-- COLL_OP_COMPLETE: every output and the record are written and every message is acknowledged: record, SIG, DONE and OPS, MSI-X (R426). A completion
record that is refused ends the operation in error (R427). -/
def execCollOpComplete (c idx : Nat) (s : State) : Host.Outcome State Fault Refusal :=
  run (fun m =>
    match m.op? c idx with
    | none => m
    | some op =>
      if !op.written || !op.nodesSent (m.coll c op.desc) || m.opWaits c idx then m
      else
        let m := if op.desc.op = 10 then m.publishNorm op else m
        let x := m.ctx c
        match m.store .coll (x.recAt idx) (recordBytes idx false false false false 0 op.start m.time 0x1FF (m.group x.axes).length) false with
        | (m, some a) => m.opMem op a
        | (m, none) =>
          let sg := sigOf op.desc.sig
          let m := if bitAt op.desc.modes 6 then m.signal .none sg.counter sg.modid sg.remote sg.inc else m
          let m := (m.bump pgColl 0x180 1).opOver c idx 1
          if op.desc.irq then m.msix x.msix else m) s

/-- COLL_TIMEOUT: an operation has run longer than an OP_LIMIT that is not 0 (R428) -/
def execCollTimeout (c idx : Nat) (s : State) : Host.Outcome State Fault Refusal :=
  run (fun m =>
    match m.op? c idx with
    | none => m
    | some op =>
      let limit := m.fld pgColl 0x108 0 16
      if limit = 0 then m else m.opBad op Ev.collTimeout limit op.desc.step (m.rankIn op)) s

/-! Contexts -/

/-- The byte of the first bad field of a Context Table entry, with the shard map that it names (R405, R408). -/
def Mod.ctxBad (m : Mod) (b map : List Nat) : Option Nat :=
  let f := field b
  let rlog := bitsOf (f 0 8) 44 5
  let ring := bitsOf (f 0 8) 0 44
  let axes := f 24 1
  let l := f 28 4
  let scr := f 40 8
  let mm := (m.group axes).length
  let checks : List (Nat × Bool) :=
    [(0, bitsOf (f 0 8) 49 15 ≠ 0 || decide (rlog < 4) || decide (12 < rlog) || ring % 4096 ≠ 0 || decide (m.memTop < ring + 128 * 2 ^ rlog)),
     (20, bitsOf (f 20 1) 2 6 ≠ 0), (21, bitsOf (f 21 1) 2 6 ≠ 0),
     (24, axes = 0 || bitsOf axes 5 3 ≠ 0 || (bitAt axes 4 && axes ≠ 16) || m.sliceId = 0), (25, f 25 3 ≠ 0),
     (28, l = 0 || decide (65536 < l) || decide (l < mm)),
     (32, f 32 8 ≥ 2 ^ 44 || decide (m.memTop < f 32 8 + 2 * l) || map.any (fun r => decide (mm ≤ r))),
     (40, scr ≥ 2 ^ 44 || scr % 65536 ≠ 0 || decide (m.memTop < scr + 65536 * f 48 3)), (48, f 48 3 = 0 || f 51 1 ≠ 0),
     (52, bitsOf (f 52 2) 11 5 ≠ 0), (64, f 64 8 ≥ 2 ^ 44 || f 64 8 % 4096 ≠ 0 || decide (m.memTop < f 64 8 + 32 * 2 ^ rlog)),
     (72, (b.drop 72).any (· ≠ 0))]
  (checks.find? (·.2)).map (·.1)

/-- A Context Table entry as read, with its shard map and the job seed (R263, R405). -/
def Context.ofBytes (b map : List Nat) (seed : W64) : Context :=
  let f := field b
  { state := .active, ring := bitsOf (f 0 8) 0 44, rlog := bitsOf (f 0 8) 44 5, cring := f 64 8, tail := f 8 4, head := f 12 4, doneIdx := f 16 4,
    tailsrc := bitAt (f 20 1) 0, irqHalt := bitAt (f 20 1) 1, tailEvc := f 22 2, axes := f 24 1, shards := f 28 4, smap := map, scr := f 40 8,
    scrLen := f 48 3, msix := bitsOf (f 52 2) 0 11, errCode := f 54 2, errIdx := f 56 4, ops := 0, seed }

/-- The ENABLE command (R408): the entry is read whole and checked before any state changes. -/
def Mod.ctxEnable (m : Mod) (c : Nat) : Mod :=
  match m.load .coll (m.ctAddr c) 128 with
  | (m, .refused _ _) => m.emit pgColl Ev.collCtxFault 0 2 0 c
  | (m, .poisoned _) => m.emit pgColl Ev.collCtxFault 0 1 0 c
  | (m, .ok b) =>
    match m.ctxBad b [] with
    | some byte => m.emit pgColl Ev.collCtxFault byte 0 0 c
    | none =>
      match m.load .coll (field b 32 8) (2 * field b 28 4) with
      | (m, .refused _ _) => m.emit pgColl Ev.collCtxFault 0 2 0 c
      | (m, .poisoned _) => m.emit pgColl Ev.collCtxFault 0 1 0 c
      | (m, .ok t) =>
        let map := (chunksOf 2 t.length t).map ofLe
        match m.ctxBad b map with
        | some byte => m.emit pgColl Ev.collCtxFault byte 0 0 c
        | none =>
          let x := Context.ofBytes b map m.rngSeed
          let m := (m.setCtx c x).logItem (.context c x.axes x.shards (m.group x.axes).length (smapCrc map))
          if x.tailsrc && x.tail ≠ m.ctr x.tailEvc % 2 ^ 32 then m.ctxTail c (m.ctr x.tailEvc % 2 ^ 32) else m

/-- A command register of the collective engine's page acts only while the page is enabled (R438). -/
def Mod.ceCmd (m : Mod) (who off v : Nat) (body : Mod → Mod) : Mod := if m.acts pgColl then body m else m.ignored pgColl off v who

/-- COLL_CMD_BAD: the command is discarded (R438). -/
def Mod.ccmdBad (m : Mod) (c cmd : Nat) : Mod := m.emit pgColl Ev.collCmdBad cmd (m.ctx c).state.code 0 c

/-- A command of CE_CCMD: 1 ENABLE, 2 DISABLE, 3 RESUME (R284, R408, R438). -/
def Mod.ctxCmd (m : Mod) (who cmd c : Nat) : Mod :=
  m.ceCmd who 0x118 (cmd * 2 ^ 29 + c) (fun m =>
    let m := { m with ce := { m.ce with lastCtx := c } }
    match cmd, (m.ctx c).state with
    | 1, .disabled => m.ctxEnable c
    | 2, .active => (m.setCtx c { m.ctx c with state := .draining }).ctxDrained c
    | 2, .halted => (m.setCtx c { m.ctx c with state := .draining }).ctxDrained c
    | 3, .halted => m.setCtx c { m.ctx c with state := .active }
    | _, _ => m.ccmdBad c cmd)

/-- A doorbell write: context and bits [18:0] of the new TAIL; code 4 stands for it in COLL_CMD_BAD (R290, R410). -/
def Mod.ceDoorbell (m : Mod) (who c t : Nat) : Mod :=
  m.ceCmd who 0x120 (c * 2 ^ 24 + t) (fun m =>
    let x := m.ctx c
    if x.state = .disabled || x.state = .draining then m.ccmdBad c 4
    else if x.tailsrc then m.emit pgColl Ev.collOverrun t x.doneIdx (2 ^ x.rlog) c
    else m.ctxTail c ((x.head + (t + 2 ^ 32 - x.head) % 2 ^ 19) % 2 ^ 32))

end Sys2Proof.Machine
end

