-- ==== Sys2Proof/Machine/Rounds.lean ====
section
/-! DEFINITION. What leaves an input (R373, R374, R379 to R396): ejection and reassembly with the payload applied, the rounds, injection, and the drops. -/
namespace Sys2Proof.Machine

/-! Ejection (R373, R381, R388, R389, R392) -/

/-- The lower of two sequence numbers modulo 2^32. -/
def seqBelow (a b : Nat) : Bool := decide (2 ^ 31 ≤ (a + 2 ^ 32 - b) % 2 ^ 32)

/-- The message has been completed (R392). -/
def DupEntry.has (e : DupEntry) (seq : Nat) : Bool := seqBelow seq e.base || bitAt e.map ((seq + 2 ^ 32 - e.base) % 2 ^ 32)

/-- BASE passes every completed sequence (R392). -/
def DupEntry.settle : Nat → DupEntry → DupEntry
  | 0, e => e
  | k + 1, e => if e.map % 2 = 1 then DupEntry.settle k { e with base := (e.base + 1) % 2 ^ 32, map := e.map / 2 } else e

/-- A sequence is completed with a status (R392). -/
def DupEntry.add (e : DupEntry) (seq status : Nat) : DupEntry :=
  if e.has seq then e
  else
    let d := (seq + 2 ^ 32 - e.base) % 2 ^ 32
    DupEntry.settle (d + e.map.log2 + 2)
      { e with map := e.map + 2 ^ d, sts := if status = 0 then e.sts else (seq, status) :: e.sts }

/-- The duplicate entry of a source (R392). -/
def Mod.dupOf (m : Mod) (src inc : Nat) : DupEntry :=
  match m.rt.dup.find? (fun e => e.src = src && e.inc = inc) with
  | some e => e
  | none => { src, inc, base := 0, map := 0 }

def Mod.setDup (m : Mod) (e : DupEntry) : Mod := { m with rt := { m.rt with dup := e :: m.rt.dup.filter (fun x => x.src ≠ e.src) } }

/-- The module's own parts answer no message: module reset, forward-only mode, or power other than ON (R399, R463, R514). -/
def Mod.shut (m : Mod) : Bool := m.fwdOnly || !m.pins.modResetN || m.pwr.st ≠ .on || !m.booted

/-- The delivery check (R373). -/
def Mod.delivers (m : Mod) (p : Packet) : Bool :=
  if p.type = tyMgmt then p.slice = 0
  else p.slice = m.sliceId && p.slice ≠ 0 && m.boxes.any (fun b => m.inBox b (coordOf p.src))

/-- A compute reset refuses event increments and messages of collectives (R399). -/
def Mod.bars (m : Mod) (ty : Nat) : Bool := m.crst && (ty = tyEvInc || ty = tyColl)

/-- The status with which a packet's message is refused, if any (R368, R373, R394, R399). -/
def Mod.refuses (m : Mod) (p : Packet) : Nat :=
  if m.rt.quar then 5
  else if !m.delivers p then 1
  else if p.type ≠ tyMgmt && (m.shut || m.bars p.type) then 4
  else 0

/-- Enters a packet into its message; the payload of a WRITE or COLL packet is applied at once (R388, R389). -/
def Mod.reassemble (m : Mod) (p : Packet) (status : Nat) : Mod :=
  let known := m.rt.dup.any (fun e => e.src = p.src && e.inc = p.inc)
  let m := if known then m
    else { m with rt := { m.rt with reasm := m.rt.reasm.filter (fun x => x.src ≠ p.src), dup := m.rt.dup.filter (fun x => x.src ≠ p.src) } }
      |>.setDup { src := p.src, inc := p.inc, base := 0, map := 0 }
  let mine := fun (x : InMsg) => x.src = p.src && x.seq = p.seq && x.inc = p.inc
  let old := m.rt.reasm.find? mine
  let open' := (m.rt.reasm.filter (fun x => decide (x.got.length < x.cnt))).length
  if old.isNone && decide (1024 ≤ open') then m.bump pgRouter 0x1AC 1
  else
    let e := match old with
      | some e => e
      | none => { src := p.src, seq := p.seq, inc := p.inc, type := p.type, addr := p.addr - 1024 * p.idx, arg := p.arg, cnt := p.cnt, slice := p.slice,
                  dup := (m.dupOf p.src p.inc).has p.seq }
    let e := if e.status = 0 then { e with status := status } else e
    let new := !e.got.any (fun g => g.1 = p.idx) && decide (p.idx < e.cnt)
    let e := if new then { e with got := (p.idx, p.payload) :: e.got } else e
    let (m, e) :=
      if e.status ≠ 0 || e.dup then (m, e)
      else if p.type = tyWrite then
        match m.store (.remote p.src) p.addr p.payload false with
        | (m, none) => (m, e)
        | (m, some _) => (m, { e with status := 2 })
      else if p.type = tyColl && new then m.collPacket e p.idx p.payload
      else (m, e)
    { m with rt := { m.rt with reasm := e :: m.rt.reasm.filter (fun x => !mine x) } }

/-- A packet addressed to the module leaves through the ejection path (R366, R373, R381). -/
def Mod.eject (m : Mod) (i : Nat) (p : Packet) : Mod :=
  let m := m.bump pgRouter 0x188 1
  if !p.crcOk then (m.bump pgRouter 0x198 1).emit pgRouter Ev.fabCrcError p.src p.seq p.idx i
  else
    let status := m.refuses p
    let m := if status = 1 then (m.bump pgRouter 0x1A8 1).emit pgRouter Ev.fabSliceRefused p.slice p.src p.dst i else m
    if status ≠ 0 && !needsAck p.type then m else m.reassemble p status

/-! A round (R379 to R387) -/

/-- A candidate of a round: its input port, whether it waits in the transit buffer, and the packet. -/
structure Cand where
  inp : Nat
  transit : Bool
  b : Buffered
  deriving DecidableEq, Repr, Inhabited

/-- A round in progress: the module, the outputs still free, the outputs that carried Gauze. -/
structure Round where
  m : Mod
  free : List Nat
  gauze : List Nat

/-- The packets that wait in an input, its transit buffer first. -/
def Mod.waiting (m : Mod) (i : Nat) : List Cand :=
  let p := m.port i
  (match p.transit with | some b => [⟨i, true, b⟩] | none => []) ++ p.buf.map (fun b => ⟨i, false, b⟩)

/-- The packets that wait in any input. -/
def Mod.waitingAll (m : Mod) : List Cand := ((List.range 19).map m.waiting).flatten

/-- Inserts behind those of the same or a smaller key. -/
def insertBy {α : Type} (key : α → Nat) (x : α) : List α → List α
  | [] => [x]
  | y :: t => if key x < key y then x :: y :: t else y :: insertBy key x t

/-- Orders a list by a key, keeping the order of equal keys. -/
def sortBy {α : Type} (key : α → Nat) (l : List α) : List α := l.foldl (fun a x => insertBy key x a) []

/-- Candidates by AGE; equal ones by input port (R379). -/
def byAge (l : List Cand) : List Cand := sortBy (fun c => c.b.pkt.age) l

/-- Takes a packet out of its input. -/
def Mod.unbuffer (m : Mod) (c : Cand) : Mod :=
  m.onPort c.inp (fun p => if c.transit then { p with transit := none } else { p with buf := p.buf.erase c.b })

/-- The packet as it goes out through a port: HOPS, and DEFL and URGENT where that is a deflection (R365, R379). -/
def Packet.hop (p : Packet) (deflected : Bool) : Packet :=
  let d := if deflected then min 255 (p.defl + 1) else p.defl
  { p with hops := min 255 (p.hops + 1), defl := d, urgent := p.urgent || (deflected && d = 16) }

/-- A packet takes an output. -/
def Round.take (r : Round) (c : Cand) (out : Nat) : Round :=
  let p := c.b.pkt
  let m := r.m
  let gauze := !m.native p
  let deflected := !gauze && !(m.ways p).any (fun w => w.1 = out)
  let q := p.hop deflected
  let m := (m.unbuffer c).bump pgRouter 0x180 1
  let m := if deflected then m.bump pgRouter 0x18C 1 else m
  let m := if q.urgent && !p.urgent then m.bump pgRouter 0x190 1 else m
  { m := (m.bump (pgPort out) 0x180 1).send (.packet out q), free := r.free.erase out, gauze := if gauze then out :: r.gauze else r.gauze }

/-- The productive ports of a packet that are free and that it may be sent through. -/
def Round.open (r : Round) (p : Packet) : List (Nat × Nat) := (r.m.ways p).filter (fun w => r.free.contains w.1 && r.m.allows p w.1)

/-- The candidate still waits. -/
def Round.has (r : Round) (c : Cand) : Bool := (r.m.waiting c.inp).contains c

/-- An input whose buffer is full and whose port is UP (R380). -/
def Mod.inputFull (m : Mod) (i : Nat) : Bool := (m.port i).full && (m.port i).st = .up

/-- Ejection: from each input one packet for the module, URGENT native ones first, then the oldest (R381). -/
def Mod.ejectRound (m : Mod) : Mod :=
  m.each (List.range 19) (fun m i =>
    let mine := (m.waiting i).filter (fun c => c.b.pkt.dst = m.modid)
    let urgent := mine.filter (fun c => c.b.pkt.urgent && m.native c.b.pkt)
    match byAge (if urgent.isEmpty then mine else urgent) with
    | c :: _ => (m.unbuffer c).eject i c.b.pkt
    | [] => m)

/-- Gauze took fewer than a share of the last seven slots of an output, so that this slot keeps within SHARE of eight (R386). -/
def Mod.gauzeShare (m : Mod) (out : Nat) : Bool :=
  decide (((m.port out).gz.filter (fun g => g)).length + 1 ≤ m.fld pgRouter 0x164 0 3)

/-- The last seven slots of an output carried no Gauze (R386). -/
def Mod.gauzeDue (m : Mod) (out : Nat) : Bool := (m.port out).gz.length = 7 && (m.port out).gz.all (fun g => !g)

/-- Waiting Gauze takes at least one slot in eight of an output, unless a full input needs it (R386). -/
def Round.gauzeFirst (r : Round) : Round :=
  (byAge (r.m.waitingAll.filter (fun c => !r.m.native c.b.pkt))).foldl (fun r c =>
    match bestWay ((r.open c.b.pkt).filter (fun w => r.m.gauzeDue w.1 && !r.m.inputFull w.1)) with
    | some o => r.take c o
    | none => r) r

/-- The packet of a full input that goes out by port j in exchange for the input's own port (R380). -/
def Round.swap (r : Round) (p j : Nat) : Option Cand :=
  if !r.free.contains j then none
  else (byAge ((r.m.waiting p).filter (fun c => !c.transit && r.m.native c.b.pkt && r.m.allows c.b.pkt j))).head?

/-- URGENT packets: those of the job slice by AGE, then those of slice 0 (R379 step 1, R380). -/
def Round.urgents (r : Round) : Round :=
  let l := r.m.waitingAll.filter (fun c => c.b.pkt.urgent && r.m.native c.b.pkt && c.b.pkt.dst ≠ r.m.modid)
  (byAge (l.filter (fun c => c.b.pkt.slice ≠ 0)) ++ byAge (l.filter (fun c => c.b.pkt.slice = 0))).foldl (fun r c =>
    if !r.has c then r
    else
      let ok := (r.open c.b.pkt).filter (fun w => w.1 = c.inp || !r.m.inputFull w.1 || (r.swap w.1 c.inp).isSome)
      match bestWay ok with
      | none => r
      | some o =>
        let other := if o ≠ c.inp && r.m.inputFull o then r.swap o c.inp else none
        let r := r.take c o
        match other with
        | some d => r.take d c.inp
        | none => r) r

/-- The first free port of the packet's slice mask: a deflection where it is not productive (R379). -/
def Round.anyPort (r : Round) (p : Packet) (ports : List Nat) : Option Nat := ports.find? (fun i => r.free.contains i && r.m.allows p i)

/-- A Gauze packet moves into the transit buffer of its input, from now on (R385). -/
def Round.stow (r : Round) (c : Cand) : Round :=
  if (r.m.port c.inp).transit.isNone && !c.transit then
    { r with m := (r.m.unbuffer c).onPort c.inp (fun p => { p with transit := some { c.b with since := r.m.time } }) }
  else r

/-- The packet of a full input that gets an output, and which: a native one takes a productive port or any that its slice may use, Gauze a productive
one; the ports `kept` are left to the other full inputs (R379 step 2, R380). -/
def Round.relief (r : Round) (i : Nat) (kept : List Nat) : Option (Cand × Nat) :=
  let l := byAge (r.m.waiting i)
  let natives := l.filter (fun c => r.m.native c.b.pkt)
  let best := fun (c : Cand) => bestWay ((r.open c.b.pkt).filter (fun w => !kept.contains w.1))
  let any := fun (c : Cand) => r.anyPort c.b.pkt (i :: (List.range 19).filter (fun j => !kept.contains j))
  let firsts := natives.filter (fun c => c.b.pkt.dst ≠ r.m.modid) ++ natives.filter (fun c => c.b.pkt.dst = r.m.modid)
  (firsts.findSome? (fun c => ((best c).or (any c)).map (c, ·))).or
    ((l.filter (fun c => !r.m.native c.b.pkt)).findSome? (fun c => (best c).map (c, ·)))

/-- One packet of each full input gets an output, or its oldest Gauze moves into the transit buffer; the ports by which the other full inputs receive
are left to them (R379 step 2, R380). -/
def Round.fulls (r : Round) : Round :=
  (List.range 19).foldl (fun r i =>
    if !r.m.inputFull i then r
    else
      match r.relief i ((List.range 19).filter (fun j => decide (i < j) && r.m.inputFull j)) with
      | some (c, o) => r.take c o
      | none =>
        match byAge ((r.m.waiting i).filter (fun c => !c.transit && !r.m.native c.b.pkt)) with
        | c :: _ => r.stow c
        | [] => r) r

/-- tHOLD, two maximum packet times, in ns (R401). -/
def tHold : Nat := 11

/-! Injection (R374 to R376, R393, R395, R398) -/

/-- The intermediate of a message by a draw from ZCG-64 (R376). -/
def Mod.intermediate (m : Mod) (x : Msg) : Nat :=
  if x.direct then x.dst
  else
    match m.ownBox with
    | none => x.dst
    | some b =>
      let r := (zcg64 (BitVec.ofNat 64 (m.reg64 pgRouter 0x150 0x154)) (x.attempt * 2 ^ 16 + m.modid) (x.dst * 2 ^ 32 + x.seq) 0).toNat
      let at' := fun (s : Span) (lo n : Nat) => (s.base + bitsOf r lo 16 % max s.len 1) % max n 1
      (Coord.mk (at' b.x 0 (m.ringLen .x)) (at' b.y 16 (m.ringLen .y)) (at' b.z 32 (m.ringLen .z)) (at' b.w 48 8)).id

/-- Packet k of a message (R365, R367). -/
def Mod.packetOf (m : Mod) (x : Msg) (k : Nat) : Packet :=
  let n := pktCount x.data.length
  let p : Packet :=
    { dst := x.dst, src := m.modid, inter := x.inter, slice := x.slice, tc := x.tc, direct := x.direct, last := k + 1 = n, type := x.type, defl := 0,
      phase := x.direct, urgent := false, hops := 0, seq := x.seq, idx := k, cnt := n, inc := m.rt.inc, age := x.age, addr := x.addr + 1024 * k, arg := x.arg,
      attempt := x.attempt, crcOk := true, payload := (x.data.drop (1024 * k)).take 1024 }
  p

/-- The lowest unacknowledged sequence to a destination (R393). -/
def Mod.lowestOpen (m : Mod) (dst : Nat) : Option Nat := ((m.rt.msgs.filter (fun x => x.dst = dst && needsAck x.type)).map (·.seq)).head?

/-- The sequence of a message lies below the lowest unacknowledged one to its destination + 64 (R393). -/
def Mod.inWindow (m : Mod) (x : Msg) : Bool :=
  match m.lowestOpen x.dst with
  | some l => decide ((x.seq + 2 ^ 32 - l) % 2 ^ 32 < 64) || seqBelow x.seq l
  | none => true

/-- The unanswered messages of the router (RT_STATUS.OUTSTANDING). -/
def Mod.outstanding (m : Mod) : Nat := (m.rt.msgs.filter (fun x => x.started && needsAck x.type)).length

/-- A message may send its packets now: MGMT always at its rate; others from READY on; a message that needs an answer starts only without the hold
of R398 and within the limits of R393; in quarantine only answers go out; the refusal of a message goes out in every stage (R374, R393, R394, R398, R399, R514, R517). DEDUCED, log entry
97. -/
def Mod.mayInject (m : Mod) (x : Msg) : Bool :=
  if x.left.isEmpty || !m.inWindow x then false
  else if x.type = tyMgmt then !m.rt.quar && decide (0 < m.fld pgRouter 0x168 0 16) && decide (m.rt.mgmtFrom ≤ m.time)
  else if x.type = tyAck && bitsOf x.arg 32 8 ≠ 0 then true
  else if m.felt.stage ≠ .ready then false
  else if !needsAck x.type then x.type = tyAck || !m.rt.quar
  else if m.rt.quar then false
  else if x.started then true
  else !m.flag pgRouter 0x170 0 && decide (m.outstanding < 4096)

/-- Replaces a message of the router. -/
def Mod.setMsg (m : Mod) (x : Msg) : Mod :=
  { m with rt := { m.rt with msgs := m.rt.msgs.map (fun y => if y.dst = x.dst && y.seq = x.seq then x else y) } }

/-- A message that needs no answer leaves the list when its last packet has gone. -/
def Mod.msgSent (m : Mod) (x : Msg) : Mod :=
  if x.left.isEmpty && !needsAck x.type then
    { m with rt := { m.rt with msgs := m.rt.msgs.filter (fun y => !(y.dst = x.dst && y.seq = x.seq)) } }
  else m.setMsg x

/-- A message other than MGMT of a module that belongs to no slice goes nowhere, since slice 0 carries MGMT alone (R374): one that needs an answer ends
with SLICE_REFUSED. DEDUCED, log entry 97. -/
def Mod.sliceless (m : Mod) (x : Msg) : Mod :=
  let m := m.msgSent { x with left := [], started := true }
  if needsAck x.type then
    { m with rt := { m.rt with whole := m.rt.whole ++ [{ src := x.dst, seq := 0, inc := 0, type := tyAck, addr := 0, arg := x.seq + 2 ^ 32, cnt := 1,
                                                         slice := 0, got := [(0, [])] }] } }
  else m

/-- Injects one packet of a message into a free productive port, or into the module itself. Answers none where no port is free. -/
def Round.injectOne (r : Round) (x : Msg) (k : Nat) : Option Round :=
  let m := r.m
  if x.slice = 0 && x.type ≠ tyMgmt then some { r with m := m.sliceless x }
  else
  let p := m.rephase (m.packetOf x k)
  let done := fun (m : Mod) =>
    let m := (m.bump pgRouter 0x184 1).msgSent { x with left := x.left.tail, started := true }
    if x.type = tyMgmt then { m with rt := { m.rt with mgmtFrom := m.time + ceilDiv (p.size * 1000) (max 1 (m.fld pgRouter 0x168 0 16)) } } else m
  if x.dst = m.modid then some { r with m := (done m).eject 0xFF { p with phase := true } }
  else
    match bestWay (r.open p) with
    | none => none
    | some o => some { r with m := ((done m).bump (pgPort o) 0x180 1).send (.packet o (p.hop false)), free := r.free.erase o }

/-- Injects the packets of one message while outputs are free; an attempt takes its AGE and its intermediate with its first packet (R376, R391). -/
def Round.injectMsg : Nat → Round → Nat → Nat → Round
  | 0, r, _, _ => r
  | fuel + 1, r, dst, seq =>
    match r.m.rt.msgs.find? (fun x => x.dst = dst && x.seq = seq) with
    | none => r
    | some x =>
      if !r.m.mayInject x then r
      else
        match x.left with
        | [] => r
        | k :: _ =>
          let x := if k = 0 then { x with age := r.m.time, inter := r.m.intermediate x } else x
          match r.injectOne x k with
          | some r => Round.injectMsg fuel r dst seq
          | none => r

/-- The class that a message is injected as: one that has waited 10 µs counts as TC0 (R395). -/
def Msg.cls (x : Msg) : Nat := if x.hurried then 0 else x.tc

/-- A COLL message of a kind. -/
def Msg.isColl (x : Msg) (kind : Nat) : Bool := x.type = tyColl && bitsOf x.arg 8 8 = kind

/-- The place of a message among those that wait: by class, and a veto ahead of every message of a vote (R395, R425). -/
def Msg.order (l : List Msg) (x : Msg) : Nat :=
  if x.isColl 5 then 2 * ((l.filter (·.isColl 4)).map Msg.cls).foldl min x.cls else 2 * x.cls + 1

/-- The AGE that the next packet of a message will carry: a new attempt takes the time (R376, R391). -/
def Msg.nextAge (now : Nat) (x : Msg) : Nat := if x.left.head? = some 0 then now else x.age

/-- Local messages, from the lowest waiting class on, while the next one passes a test (R379, R395). -/
def Round.inject (r : Round) (go : Msg → Bool) : Round :=
  (((sortBy (Msg.order r.m.rt.msgs) r.m.rt.msgs).filter r.m.mayInject).takeWhile go).foldl (fun r x =>
    if r.free.isEmpty && x.dst ≠ r.m.modid then r else Round.injectMsg 32 r x.dst x.seq) r

/-- A native packet waits for an output, in an input buffer or for injection (R386). -/
def Round.nativeWants (r : Round) (out : Nat) : Bool :=
  let wants := fun (p : Packet) => p.dst ≠ r.m.modid && (r.m.ways p).any (fun w => w.1 = out) && r.m.allows p out
  r.m.waitingAll.any (fun c => r.m.native c.b.pkt && wants c.b.pkt)
  || r.m.rt.msgs.any (fun x => r.m.mayInject x && wants (r.m.rephase (r.m.packetOf { x with inter := r.m.intermediate x } (x.left.headD 0))))

/-- A packet that waits, as its AGE comes up: a native one that has waited tHOLD is deflected, Gauze that has moves into the transit buffer (R379
step 3, R384 to R386). -/
def Round.serve (r : Round) (c : Cand) : Round :=
  let p := c.b.pkt
  let held := decide (c.b.since + tHold ≤ r.m.time)
  if !r.has c || (r.m.native p && p.urgent && p.dst ≠ r.m.modid) then r
  else if r.m.native p then
    match (bestWay (r.open p)).or (if held then r.anyPort p (List.range 19) else none) with
    | some o => r.take c o
    | none => r
  else
    match bestWay ((r.open p).filter (fun w => r.m.gauzeShare w.1 || !r.nativeWants w.1)) with
    | some o => r.take c o
    | none => if held then r.stow c else r

/-- The other packets by AGE, a local one behind others of the same AGE (R379 steps 3 and 4). -/
def Round.others (r : Round) : Round :=
  ((byAge r.m.waitingAll).foldl (fun r c => (r.inject (fun x => decide (x.nextAge r.m.time < c.b.pkt.age))).serve c) r).inject (fun _ => true)

/-- The packets of the vetoes that wait leave, each as outputs come free (R520). -/
def Mod.flushVeto (m : Mod) : Mod :=
  if !m.rtOn then m
  else m.each (m.rt.msgs.filter (·.isColl 5)) (fun m x => (Round.injectMsg 32 { m, free := m.upPorts, gauze := [] } x.dst x.seq).m)

/-- The end of a round: the slots of each output are noted (R386), and transit-hold follows the transit buffers (R385). -/
def Round.finish (r : Round) : Mod :=
  r.m.each (List.range 19) (fun m i =>
    let p := m.port i
    let hold := p.transit.isSome
    let m := m.setPort i { p with gz := if p.st = .up then (r.gauze.contains i :: p.gz).take 7 else p.gz, holdOut := hold }
    if hold ≠ p.holdOut then m.send (.hold i hold) else m)

/-- ROUTER_ROUND: ejection, then the assignment of outputs in the order of R379, injection among it (R377 to R386, R395). DESIGN CHOICE, log entry 82. -/
def execRouterRound (s : State) : Host.Outcome State Fault Refusal :=
  run (fun m =>
    if !m.rtOn then m
    else
      let m := m.each (List.range 19) (fun m i =>
        m.onPort i (fun p => { p with buf := p.buf.map (fun b => { b with pkt := m.rephase b.pkt }),
                                      transit := p.transit.map (fun b => { b with pkt := m.rephase b.pkt }) }))
      let m := m.ejectRound
      let r : Round := { m, free := m.upPorts, gauze := [] }
      r.gauzeFirst.urgents.fulls.others.finish) s

/-- FAB_LIFE_DROP: packet k of input i (19 and above: none), the transit buffer's first, is older than RT_LIFE (R382). DEDUCED, log entry 84. -/
def execFabLifeDrop (i k : Nat) (s : State) : Host.Outcome State Fault Refusal :=
  run (fun m =>
    match (m.waiting i)[k]? with
    | some c =>
      let p := c.b.pkt
      if decide (i < 19) && m.rtOn && decide (p.age + m.fld pgRouter 0x15C 0 16 * 1000 < m.time) then
        ((m.unbuffer c).bump pgRouter 0x194 1).emit pgRouter Ev.fabLifeDrop p.src p.dst (p.hops + 256 * p.defl) i
      else m
    | none => m) s

/-- FAB_GAUZE_DROP: a packet has waited in the transit buffer for longer than HOLD_US, or Gauze that arrived behind it holds the space of a full
input (R387). While machine time does not run, no time is known to be missing. -/
def execFabGauzeDrop (i : Nat) (s : State) : Host.Outcome State Fault Refusal :=
  run (fun m =>
    match (m.port i).transit with
    | none => m
    | some t =>
      let late := !m.mt.started || decide (t.since + m.fld pgRouter 0x164 8 8 * 1000 < m.time)
      let behind := if m.inputFull i then (m.waiting i).find? (fun c => !c.transit && !m.native c.b.pkt && decide (t.since ≤ c.b.since)) else none
      let drop := fun (c : Cand) =>
        ((m.unbuffer c).bump pgRouter 0x1A4 1).emit pgRouter Ev.fabGauzeDrop c.b.pkt.slice c.b.pkt.src c.b.pkt.dst i
      match (if late then some ⟨i, true, t⟩ else behind) with
      | some c => drop c
      | none => m) s

/-- INJECTION_WAIT_EXPIRY: the message is injected as if it were TC0 (R395) -/
def execInjectionWaitExpiry (dst seq : Nat) (s : State) : Host.Outcome State Fault Refusal :=
  run (fun m =>
    match m.rt.msgs.find? (fun x => x.dst = dst && x.seq = seq) with
    | some x => if x.left.isEmpty then m else m.setMsg { x with hurried := true }
    | none => m) s

/-- MESSAGE_COMPLETE: every packet of a message has arrived and passed its check; the message waits for the row of its type (R388) -/
def execMessageComplete (src seq : Nat) (s : State) : Host.Outcome State Fault Refusal :=
  run (fun m =>
    match m.rt.reasm.find? (fun x => x.src = src && x.seq = seq && x.got.length = x.cnt) with
    | none => m
    | some x =>
      let m := { m with rt := { m.rt with reasm := m.rt.reasm.filter (fun y => y ≠ x), whole := m.rt.whole ++ [x] } }
      m.setDup ((m.dupOf src x.inc).add seq x.status)) s

/-- QUARANTINE_END: the module injects and accepts messages again, and its identity frames say so (R360, R394) -/
def execQuarantineEnd (s : State) : Host.Outcome State Fault Refusal :=
  run (fun m => if m.rt.quar then { m with rt := { m.rt with quar := false } }.identAll else m) s

end Sys2Proof.Machine
end

