-- ==== Sys2Proof/Machine/Messages.lean ====
section
/-! DEFINITION. Messages at their destination and at their source (R312, R313, R367, R368, R389 to R394, R399, R412, R422, R425, R427, R432): each row takes the oldest whole message of its type. -/
namespace Sys2Proof.Machine

/-- Takes the oldest whole message that `p` chooses. -/
def Mod.takeWhole (m : Mod) (p : InMsg → Bool) : Option (InMsg × Mod) :=
  (m.rt.whole.find? p).map (fun x => (x, { m with rt := { m.rt with whole := m.rt.whole.erase x } }))

/-- Answers a message with an ACK of a status, and keeps the status for a duplicate (R368, R390, R392). -/
def Mod.answer (m : Mod) (x : InMsg) (status : Nat) : Mod :=
  let e := m.dupOf x.src x.inc
  let m := if status = 0 || e.sts.any (fun s => s.1 = x.seq) then m else m.setDup { e with sts := (x.seq, status) :: e.sts }
  m.postIn x.slice .none x.src tyAck 0 true 0 (x.seq + status * 2 ^ 32) []

/-- The status with which a completed message was answered before. -/
def Mod.oldStatus (m : Mod) (x : InMsg) : Nat := (((m.dupOf x.src x.inc).sts.find? (fun s => s.1 = x.seq)).map (·.2)).getD 0

/-- A WRITE, EV_INC or COLL message: a refused one and a duplicate are answered and applied nowhere (R390, R392, R399). -/
def Mod.acked (m : Mod) (x : InMsg) (body : Mod → Mod × Nat) : Mod :=
  if x.dup then (m.bump pgRouter 0x1A0 1).answer x (m.oldStatus x)
  else if x.status ≠ 0 then m.answer x x.status
  else if m.shut || m.bars x.type then m.answer x 4
  else
    let (m, status) := body m
    m.answer x status

/-- WRITE: its payload has been applied as its packets came; it is answered (R389, R390) -/
def execWrite (s : State) : Host.Outcome State Fault Refusal :=
  run (fun m =>
    match m.takeWhole (fun x => x.type = tyWrite) with
    | none => m
    | some (x, m) => m.acked x (fun m => (m, 0))) s

/-- READ_REQ: served with READ_DATA, or answered with the status of its failure; a duplicate is served again (R367, R368, R389, R392, R399) -/
def execReadReq (s : State) : Host.Outcome State Fault Refusal :=
  run (fun m =>
    match m.takeWhole (fun x => x.type = tyReadReq) with
    | none => m
    | some (x, m) =>
      if x.status ≠ 0 then m.answer x x.status
      else if m.shut then m.answer x 4
      else
        let n := x.arg / 2 ^ 44
        if n = 0 || n > 65536 then m.answer x 2
        else
          match m.load (.remote x.src) x.addr (64 * n) with
          | (m, .refused _ _) => m.answer x 2
          | (m, .poisoned _) => m.answer x 3
          | (m, .ok bs) => m.post .none x.src tyReadData 4 false (x.arg % 2 ^ 44) x.seq bs) s

/-- EV_INC: applied once where the counter lies within DSP_EV_REMOTE (R312) -/
def execEvInc (s : State) : Host.Outcome State Fault Refusal :=
  run (fun m =>
    match m.takeWhole (fun x => x.type = tyEvInc) with
    | none => m
    | some (x, m) =>
      m.acked x (fun m =>
        let c := bitsOf x.arg 0 16
        if m.fld pgDsp 0x108 0 16 ≤ c && c ≤ m.fld pgDsp 0x108 16 16 then ((m.addCtr c (bitsOf x.arg 16 24)).bump pgDsp 0x18C 1, 0) else (m, 6))) s

/-- A request joins the queue of the Felt firmware, which holds 256; one that finds it full is discarded (R524). -/
def Mod.enqueue (m : Mod) (r : FeltReq) : Mod :=
  if m.felt.requests.length < 256 then { m with felt := { m.felt with requests := m.felt.requests ++ [r] } } else m

/-- MGMT: delivered to the Felt controller, where it waits for a service frame; the queue holds 256, and beyond it the message is discarded (R373, R523,
R524) -/
def execMgmt (s : State) : Host.Outcome State Fault Refusal :=
  run (fun m =>
    match m.takeWhole (fun x => x.type = tyMgmt) with
    | none => m
    | some (x, m) => m.enqueue (.mgmt x.src x.data)) s

/-! The end of a message at its source -/

/-- EV_REMOTE_REFUSED of an EVSIG: KEND raises it as a kernel fault (R313). -/
def Mod.evsigEnd (m : Mod) (k status counter dst : Nat) : Mod :=
  let e := m.eng k
  m.setEng k { e with remotes := e.remotes - 1,
                      remoteRefused := if status ≠ 0 && e.remoteRefused.isNone then some (counter, dst) else e.remoteRefused }

/-- A message of a collective operation ends with a status; another one than OK ends the operation in error (R427). -/
def Mod.collEnd (m : Mod) (c idx status dst : Nat) : Mod :=
  match m.op? c idx with
  | none => m
  | some op => if status = 0 then m else m.opBad op Ev.collMsgError status dst (rankOf (m.coll c op.desc).g dst)

/-- A message ends with a status (R368): its owner hears of it. -/
def Mod.endMsg (m : Mod) (x : Msg) (status : Nat) : Mod :=
  let m := { m with rt := { m.rt with msgs := m.rt.msgs.filter (fun y => !(y.dst = x.dst && y.seq = x.seq)) } }
  let m := if status = 5 || status = 7 then m.emit pgRouter Ev.fabPeerReset x.dst x.seq status 0xFF else m
  match x.owner with
  | .none => m
  | .dma k tag =>
    let e := m.eng k
    let t := e.getTag tag
    m.setEng k (e.setTag tag { t with xfer := t.xfer.map (fun (y : Xfer) => { y with answered := true, status }) })
  | .evsig k => m.evsigEnd k status (x.arg % 2 ^ 16) x.dst
  | .task q idx =>
    if status = 0 then m
    else (m.emit pgDsp Ev.evRemoteRefused (x.arg % 2 ^ 16) x.dst idx q).qHalt q Ev.evRemoteRefused idx
  | .coll c idx => m.collEnd c idx status x.dst

/-- ACK: the acknowledged message ends with its status (R367, R368, R391) -/
def execAck (s : State) : Host.Outcome State Fault Refusal :=
  run (fun m =>
    match m.takeWhole (fun x => x.type = tyAck) with
    | none => m
    | some (a, m) =>
      match m.rt.msgs.find? (fun x => x.dst = a.src && x.seq = bitsOf a.arg 0 32 && x.started && needsAck x.type) with
      | none => m
      | some x => m.endMsg x (bitsOf a.arg 32 8)) s

/-- READ_DATA: written at the return address of the request that it answers; a module whose parts answer no message takes none (R367, R399) -/
def execReadData (s : State) : Host.Outcome State Fault Refusal :=
  run (fun m =>
    match m.takeWhole (fun x => x.type = tyReadData) with
    | none => m
    | some (a, m) =>
      match m.rt.msgs.find? (fun x => x.dst = a.src && x.seq = bitsOf a.arg 0 32 && x.type = tyReadReq) with
      | none => m
      | some x => if m.shut then m else (m.wr a.addr a.data).endMsg x 0) s

/-- RETRANSMISSION_TIMER: the message is resent whole under the next ATTEMPT, or ends with NO_ACK (R391) -/
def execRetransmissionTimer (dst seq : Nat) (s : State) : Host.Outcome State Fault Refusal :=
  run (fun m =>
    match m.rt.msgs.find? (fun x => x.dst = dst && x.seq = seq) with
    | none => m
    | some x =>
      if !x.started || !needsAck x.type || !x.left.isEmpty || !m.rtOn then m
      else if x.attempt < m.fld pgRouter 0x158 16 4 then
        (m.bump pgRouter 0x19C 1).setMsg { x with attempt := x.attempt + 1, left := List.range (pktCount x.data.length) }
      else (m.emit pgRouter Ev.fabRtxExhausted dst seq x.type 0xFF).endMsg x 8) s

/-! COLL messages -/

/-- A COLL message of a kind that the module sent to itself is applied, and its sender hears of its end (R44, R426, R427). -/
def Mod.ownMsg (m : Mod) (e : Owner × InMsg) (body : Mod → InMsg → Mod × Nat) : Mod :=
  let (m, status) := body { m with ce := { m.ce with own := m.ce.own.erase e } } e.2
  match e.1 with
  | .coll c idx => m.collEnd c idx status m.modid
  | _ => m

/-- A COLL message of a kind: the module's own first; a whole one of another module is answered, and applied unless it is refused or a duplicate (R390,
R392). -/
def Mod.collMsg (m : Mod) (kind : Nat) (body : Mod → InMsg → Mod × Nat) : Mod :=
  match m.ce.own.find? (fun e => e.2.kind = kind) with
  | some e => m.ownMsg e body
  | none =>
    match m.takeWhole (fun x => x.type = tyColl && x.kind = kind) with
    | none => m
    | some (x, m) => m.acked x (fun m => body m x)

/-- COLL_DATA (R412, R416, R420, R422) -/
def execCollData (s : State) : Host.Outcome State Fault Refusal := run (fun m => m.collMsg 0 Mod.collApply) s

/-- COLL_GRANT (R432) -/
def execCollGrant (s : State) : Host.Outcome State Fault Refusal := run (fun m => m.collMsg 1 Mod.collApply) s

/-- COLL_READY (R422) -/
def execCollReady (s : State) : Host.Outcome State Fault Refusal := run (fun m => m.collMsg 2 Mod.collApply) s

/-- COLL_ABORT (R427) -/
def execCollAbort (s : State) : Host.Outcome State Fault Refusal :=
  run (fun m => m.collMsg 3 (fun m x => (m.bump pgColl 0x18C 1).collApply x)) s

/-- A message of the vote as received (log entry 14). -/
def InMsg.vote (x : InMsg) : Vote :=
  let b := x.data
  let fl := field b 4 4
  { src := if x.kind = 5 then x.node else x.src, ord := x.idx, kind := if x.kind = 5 then 3 else 1 + bitsOf fl 0 1, lvl := if x.kind = 5 then 0 else x.node,
    word := BitVec.ofNat 32 (field b 0 4), upd := fl / 4, skew := bitAt fl 1, step := field b 8 4, epoch := field b 12 4 }

/-- Keeps a message of the vote unless its vote is over. -/
def Mod.keepVote (m : Mod) (v : Vote) : Mod :=
  if (v.ord + 65536 - m.ep.ord) % 65536 < 32768 then { m with ep := { m.ep with votes := m.ep.votes ++ [v] } } else m

/-- COLL_VOTE: a message of phase 1 or of phase 2 is combined, and what can be sent then goes out (R340, R341, R430) -/
def execCollVote (s : State) : Host.Outcome State Fault Refusal :=
  run (fun m => m.collMsg 4 (fun m x => ((m.keepVote x.vote).voteGo x.vote.kind, 0))) s

/-- COLL_VETO: a module that holds no decision decides ROLLBACK; every module sends the veto onward (R343, R425) -/
def execCollVeto (s : State) : Host.Outcome State Fault Refusal :=
  run (fun m => m.collMsg 5 (fun m x =>
    let v := x.vote
    let m := (m.keepVote v).vetoOn v
    (if v.ord = m.ep.ord then m.heedVeto 0#32 else m, 0))) s

end Sys2Proof.Machine
end

