-- ==== Sys2Proof/Machine/Pages.lean ====
section
/-! DEFINITION. The page rules of the register interface: the agreement checks of an enable (R561 and the rules of each block), starts and stops (R562), staged values (R564), counter snapshots (R566), and which pages answer (R463, R517, R551, R568). -/
namespace Sys2Proof.Machine

/-! Which pages answer -/

/-- The islands beyond Felt are powered (R507). -/
def Mod.powered (m : Mod) : Bool := m.pwr.st = .on || m.pwr.st = .fwdOnly

/-- The pages that answer before BOOTED (R517, R551). -/
def earlyPage : Blk → Bool
  | .felt => true
  | .mt => true
  | .router => true
  | .port => true
  | .host => true
  | .pwr => true
  | _ => false

/-- The pages of the Felt domain. -/
def slowPage : Blk → Bool
  | .felt => true
  | .mt => true
  | .pwr => true
  | _ => false

/-- A page that R551 lists and that the module's present state lets answer (R463, R517). Without the other islands the Felt pages alone answer. DEDUCED, log entry 79. -/
def Mod.reachable (m : Mod) (pg : Nat) : Bool :=
  match pageBlk pg with
  | none => false
  | some (b, _) =>
    m.felt.running && (slowPage b || (m.powered && (earlyPage b || (m.booted && (b = .cal || !m.fwdOnly)))))

/-- The Felt domain serves the page for an island that is powered off, or for a router held in reset by a halt (R514, R568). -/
def Mod.shadow (m : Mod) (pg : Nat) : Bool :=
  match pageBlk pg with
  | some (.engine, i) => let st := (m.eng (52 * (i / 64) + i % 64)).st; st = .fenced || st = .off
  | some (.stack, i) => (m.stk i).st = .fenced
  | some (.router, _) => m.felt.linkHalt
  | some (.port, _) => m.felt.linkHalt
  | _ => false

/-! Agreement checks -/

/-- The first failed check of a list: the offset of its register. -/
def firstFail (l : List (Nat × Bool)) : Option Nat := (l.find? (·.2)).map (·.1)

/-- Spans of two boxes along an axis of ring length n meet. -/
def spansMeet (n : Nat) (a b : Span) : Bool := (List.range a.len).any (fun k => decide (spanPos b n ((a.base + k) % max n 1) < b.len))

/-- Two boxes share a module. -/
def Mod.boxesMeet (m : Mod) (a b : Box) : Bool :=
  spansMeet (m.ringLen .x) a.x b.x && spansMeet (m.ringLen .y) a.y b.y && spansMeet (m.ringLen .z) a.z b.z && spansMeet 8 a.w b.w

/-- An axis of a box breaks R370: a full axis must be a ring, a shorter ring is whole blocks. -/
def axisBreaks (n : Nat) (s : Span) : Bool := if s.len = n then !s.ring else s.ring && (s.base % 4 ≠ 0 || s.len % 4 ≠ 0)

/-- The checks of the router page (R397). The W axis of a box is complete for every WLEN: R370 names no other form of it. -/
def Mod.routerChecks (m : Mod) : List (Nat × Bool) :=
  let used := (List.range 4).filter (fun b => (m.box b).x.len ≠ 0)
  (List.range 19).map (fun i => (0x400 + 32 * i, !bitAt (m.reg pgRouter (0x400 + 32 * i)) 0))
  ++ used.map (fun b => (0x110 + 16 * b, used.any (fun c => decide (b < c) && m.boxesMeet (m.box b) (m.box c))))
  ++ (used.map (fun b => let x := m.box b
      [(0x110 + 16 * b, decide (m.ringLen .x < x.x.len)), (0x114 + 16 * b, decide (m.ringLen .y < x.y.len)),
       (0x118 + 16 * b, decide (m.ringLen .z < x.z.len)), (0x11C + 16 * b, decide (8 < x.w.len))])).flatten
  ++ (used.map (fun b => let x := m.box b
      [(0x110 + 16 * b, axisBreaks (m.ringLen .x) x.x), (0x114 + 16 * b, axisBreaks (m.ringLen .y) x.y),
       (0x118 + 16 * b, axisBreaks (m.ringLen .z) x.z)])).flatten
  ++ [(0x100, m.sliceId ≠ 0 && !m.boxes.any (fun b => m.inBox b m.here)), (0x158, m.fld pgRouter 0x158 0 16 = 0), (0x158, m.fld pgRouter 0x158 16 4 = 0),
      (0x15C, m.fld pgRouter 0x15C 0 16 = 0), (0x164, m.fld pgRouter 0x164 0 3 = 0),
      (0x160, decide (m.fld pgRouter 0x160 0 16 < m.fld pgRouter 0x158 0 16 * m.fld pgRouter 0x158 16 4 + m.fld pgRouter 0x15C 0 16))]

/-- Ranges of pages meet. -/
def pagesMeet (a b : Nat × Nat) : Bool := decide (a.2 ≠ 0) && decide (b.2 ≠ 0) && decide (a.1 < b.1 + b.2) && decide (b.1 < a.1 + a.2)

/-- A range of 64 KiB pages lies beyond the backed memory. -/
def Mod.beyond (m : Mod) (r : Nat × Nat) : Bool := decide (r.2 ≠ 0) && decide (m.memTop < 65536 * (r.1 + r.2))

/-- The checks of the epoch controller page (R258, R328, R351). The page-state table has no size of its own: it is too small when the backed memory
ends within it. DEDUCED, log entry 59. -/
def Mod.epochChecks (m : Mod) : List (Nat × Bool) :=
  let rs := (List.range 16).map (fun r => (m.reg pgEp (0x140 + 8 * r), m.reg pgEp (0x144 + 8 * r)))
  let pool := (m.reg64 pgEp 0x114 0x118 / 65536, m.reg pgEp 0x11C)
  let pst := (m.reg64 pgEp 0x120 0x124 / 65536, ceilDiv (8 * m.protCount) 65536)
  let js := (m.reg64 pgEp 0x800 0x804 / 65536, m.reg pgEp 0x808)
  let ts := (m.reg64 pgEp 0x80C 0x810 / 65536, m.reg pgEp 0x814)
  let qt := (m.reg64 pgDsp 0x100 0x104 / 65536, 8)
  let each := fun (f : Nat → Nat × Nat → Bool) => rs.zipIdx.map (fun (x : (Nat × Nat) × Nat) => (0x140 + 8 * x.2, f x.2 x.1))
  each (fun i r => rs.zipIdx.any (fun y => decide (i < y.2) && pagesMeet r y.1))
  ++ each (fun _ r => m.beyond r)
  ++ each (fun _ r => pagesMeet r pool || pagesMeet r pst || pagesMeet r js || pagesMeet r ts || pagesMeet r qt)
  ++ [(0x11C, decide (m.reg pgEp 0x11C < 16)), (0x120, m.beyond pst), (0x104, m.reg pgEp 0x104 = 0),
      (0x808, decide (js.2 ≠ 0) && decide (js.2 < 16)), (0x814, decide (ts.2 ≠ 0) && decide (ts.2 < 16)),
      (0x800, m.beyond js), (0x80C, m.beyond ts), (0x800, pagesMeet js ts)]

/-- The checks of the log unit page (R162, R474, R497, R504). -/
def Mod.logChecks (m : Mod) : List (Nat × Bool) :=
  let n := m.lgRecs
  let first := m.lgBase / 65536
  let pages := 1 + ceilDiv (64 * n) 65536
  let ref := (m.reg64 pgLog 0x120 0x124 / 65536, ceilDiv (64 * n) 65536)
  [(0x10C, n % 1024 ≠ 0 || decide (n < 1024) || decide (4194304 < n)),
   (0x104, !m.ranges.any (fun r => decide (r.1 ≤ first) && decide (first + pages ≤ r.1 + r.2))),
   (0x100, m.flag pgLog 0x100 3 && m.on pgRng),
   (0x118, m.flag pgLog 0x100 0 && (decide (m.fld pgLog 0x118 0 5 < 10) || decide (24 < m.fld pgLog 0x118 0 5))),
   (0x120, m.flag pgLog 0x100 1 && (m.beyond ref || m.ranges.any (fun r => pagesMeet r ref))),
   (0x200, decide (m.memTop < m.reg64 pgLog 0x200 0x204 + 128 * m.fld pgLog 0x208 0 17))]

/-- The checks of the Calico page (R471); in forward-only mode the enable is refused (R569). -/
def Mod.calChecks (m : Mod) : List (Nat × Bool) :=
  let conc := m.fld pgCal 0x100 4 2
  [(0x008, m.fwdOnly), (0x104, m.fld pgCal 0x104 0 2 = 3), (0x100, m.fld pgCal 0x100 8 8 = 0), (0x104, m.fld pgCal 0x104 8 8 = 0),
   (0x104, m.fld pgCal 0x104 16 8 = 0), (0x104, m.fld pgCal 0x104 24 8 = 0), (0x100, conc = 0), (0x100, decide (2 < conc)),
   (0x100, decide (60 * m.fld pgCal 0x100 8 8 ≤ m.fld pgCal 0x100 16 8))]

/-- A module below READY refuses the enable of dispatch and the collective engine (R517). -/
def Mod.unready (m : Mod) : Nat × Bool := (0x008, m.felt.stage ≠ .ready)

/-- The agreement checks of a page in the order of its chapter, each with the register that it concerns (R561). -/
def Mod.enableChecks (m : Mod) (pg : Nat) : List (Nat × Bool) :=
  match pageBlk pg with
  | some (.router, _) => m.routerChecks
  | some (.ce, _) => [m.unready, (0x100, decide (m.memTop < m.reg64 pgColl 0x100 0x104 + 128 * 256))]
  | some (.dsp, _) => [m.unready, (0x100, decide (m.memTop < m.reg64 pgDsp 0x100 0x104 + 64 * 8192)), (0x110, decide (m.fld pgDsp 0x110 0 10 < 16))]
  | some (.ep, _) => m.epochChecks
  | some (.lg, _) => m.logChecks
  | some (.sd, _) => [(0x100, decide (m.memTop < m.reg64 pgSnap 0x100 0x104 + 16 * m.fld pgSnap 0x108 0 12))]
  | some (.host, _) => [(0x118, m.flag pgHost 0x104 0 && (decide (m.fld pgHost 0x118 0 5 < 8) || decide (20 < m.fld pgHost 0x118 0 5)))]
  | some (.cal, _) => m.calChecks
  | some (.pwr, _) => [(0x11C, decide (m.fld pgPwr 0x11C 0 8 < 85) || decide (105 < m.fld pgPwr 0x11C 0 8))]
  | _ => []

/-! Enable -/

/-- CFG_MISMATCH: kind 1 enable, 2 COMMIT (R561, R564, R572). -/
def Mod.mismatch (m : Mod) (pg off kind : Nat) : Mod :=
  (m.setPage pg { m.page pg with cfgOk := false }).pageErr pg 1 Ev.cfgMismatch off kind (if off = 0x008 then 0 else m.reg pg off) 0

/-- The restore check of the log unit (R496, R497): whether it agrees, and the state with what it writes. -/
def Mod.restoreCheck (m : Mod) : Mod × Bool :=
  let (m, g) := m.cursorRead 0
  let (m, h) := m.cursorRead 1
  let opt := fieldAt g 0 4
  let rng := fieldAt g 4 4
  let dat := fieldAt h 0 4
  let next := fieldAt g 8 4
  let before := m.rngEpoch
  let seeds := fieldAt g 16 8 = m.rngSeed.toNat
  let stamps := opt = rng && opt = dat && opt = before
  let force := m.flag pgLog 0x100 3
  let reshard := m.flag pgLog 0x100 5
  if (if force then decide (opt = dat) && seeds else stamps && seeds) then
    let m := if force then (m.setReg pgRng 0x108 dat).put .snapLog (m.lgBase + 4) (leBytes 4 dat) else m
    let m := { m with lg := { m.lg with next, restored := true, forced := force, rerun := false, snap := false, attempt := 0 } }
    let m := m.ringWrite next 8 (b2n force + 2 * b2n reshard) (leBytes 4 opt ++ leBytes 4 dat ++ leBytes 4 before ++ leBytes 4 m.rngEpoch)
    let m := if force then m.emit pgLog Ev.restoreForced dat before next 0 else m
    (m.emit pgLog Ev.restoreOk opt next (b2n reshard) 0, true)
  else (m.emit pgLog Ev.stepSkew opt dat before (if force then 3 else if stamps then 2 else 1), false)

/-- What a block does as it starts (R258, R359, R371, R495, R580, R582). JS_MINFREE counts from the free pages at the enable until the first seal: DESIGN CHOICE, log
entry 100. -/
def Mod.started (m : Mod) (pg : Nat) : Mod :=
  match pageBlk pg with
  | some (.ep, _) =>
    let m := ({ m with ep := { m.ep with st := .idle, decision := .none, contributed := false, vetoed := false, given := [], restoring := false, watchdog := false, snapActive := false,
                                         pages := [], ord := 0, votes := [] } } : Mod).emptyStores
    { m with ep := { m.ep with minFree := m.poolFree }, js := { m.js with minFree := m.jtFree false }, ts := { m.ts with minFree := m.jtFree true } }
  | some (.router, _) => m.each m.upPorts (fun m i => (m.send (.mask i (m.ownMask i))).maskSkew i)
  | some (.port, i) => if (m.port i).st = .disabled then m.onPort i (fun p => { p with st := .down }) else m
  | some (.host, _) =>
    let pend := m.host.msixPend
    (({ m with host := { m.host with msixPend := [] } } : Mod).each pend Mod.msix).evrFlush
  | _ => m

/-- Sets ENABLED and CFG_OK and starts the block. -/
def Mod.enablePass (m : Mod) (pg : Nat) : Mod := (m.setPage pg { m.page pg with enabled := true, busy := false, cfgOk := true }).started pg

/-- An enable: the checks are made at one instant, and the block starts or is refused (R561). The log unit compares its stamps last (R496). -/
def Mod.enable (m : Mod) (pg : Nat) : Mod :=
  match firstFail (m.enableChecks pg) with
  | some off => m.mismatch pg off 1
  | none =>
    if pg = pgLog then
      if m.flag pgLog 0x100 2 then
        match m.restoreCheck with
        | (m, true) => m.enablePass pg
        | (m, false) => m.mismatch pg 0x008 1
      else ({ m with lg := { m.lg with restored := false, forced := false } } : Mod).enablePass pg
    else m.enablePass pg

/-- A write of ENABLE = 1, with its word for CFG_IGNORED (R560, R561). Where PG_FEAT.CFG is 0 nothing changes (R555). -/
def Mod.pageEnable (m : Mod) (who pg v : Nat) : Mod :=
  match pageBlk pg with
  | none => m
  | some (b, _) =>
    let p := m.page pg
    if !b.cfg then m
    else if p.busy then m.ignored pg 0x008 v who
    else if p.enabled then m
    else m.enable pg

/-! Disable -/

/-- The block refuses a disable in its present state (R477, R495). -/
def Mod.disableRefused (m : Mod) (pg : Nat) : Bool := (pg = pgEp || pg = pgLog) && m.ep.isOpen

/-- A write of ENABLE = 0 (R562). A Calico page in forward-only mode is disabled already. DEDUCED, log entry 58. -/
def Mod.pageDisable (m : Mod) (who pg v : Nat) : Mod :=
  match pageBlk pg with
  | none => m
  | some (b, _) =>
    let p := m.page pg
    if !b.cfg || p.busy || !p.enabled then m
    else if m.disableRefused pg then m.ignored pg 0x008 v who
    else m.setPage pg { p with busy := true }

/-- The block has reached the point at which it stops (R317, R495, R562): dispatch runs no kernel, no collective operation is in progress, the epoch
controller is IDLE or ROLLED_BACK; any other block stops at once. -/
def Mod.stopped (m : Mod) (pg : Nat) : Bool :=
  match pageBlk pg with
  | some (.dsp, _) => m.engs.all (fun e => e.st ≠ .run)
  | some (.ce, _) => m.ce.ops.isEmpty
  | some (.ep, _) => !m.ep.isOpen
  | some (.lg, _) => !m.ep.isOpen
  | _ => true

/-- A port leaves the states in which it runs, for DOWN or DISABLED. -/
def Port.stop (p : Port) (st : PState) : Port :=
  { p with st, swapped := false, lanes := 0, ver := 0, holdIn := false, holdOut := false, peerMask := none, gz := [], buf := [], transit := none }

/-- What stops with the block (R359, R396, R491, R495). -/
def Mod.halted (m : Mod) (pg : Nat) : Mod :=
  match pageBlk pg with
  | some (.ep, _) =>
    let m := (if m.ep.snapActive then m.endSnap else m).jtEmpty
    { m with ep := { m.ep with st := .idle, pages := [], snapActive := false, watchdog := false } }
  | some (.router, _) => { m with rt := { m.rt with dropSaid := false } }
  | some (.port, i) => m.onPort i (fun p => p.stop .disabled)
  | _ => m

/-- PAGE_DISABLE_DONE: ENABLED = 0 and BUSY = 0 (R562). -/
def Mod.pageDisableDone (m : Mod) (pg : Nat) : Mod :=
  let p := m.page pg
  if p.busy && p.enabled && m.stopped pg then (m.halted pg).setPage pg { (m.halted pg).page pg with enabled := false, busy := false } else m

/-! COMMIT -/

/-- A write of COMMIT = 1 (R564): the staged fields are those of the epoch controller and of the power page. A commit with no staged change changes
nothing. -/
def Mod.pageCommit (m : Mod) (pg : Nat) : Mod :=
  let ok := fun (m : Mod) => m.setPage pg { m.page pg with cfgOk := true }
  if pg = pgEp then
    let t := m.reg pgEp 0x904
    if t = m.clip.tauPending.getD m.clip.tau then m else ok { m with clip := { m.clip with tauPending := some t } }
  else if pg = pgPwr then
    let c := m.fld pgPwr 0x110 0 13
    let f := m.fld pgPwr 0x114 0 13
    let d := m.fld pgPwr 0x118 0 13
    if c = m.pwr.capW && f = m.pwr.floorW && d = m.pwr.decayW then m
    else if c < f then m.mismatch pgPwr 0x114 2
    else if c < 1000 || 5200 < c then m.mismatch pgPwr 0x110 2
    else ok { m with pwr := { m.pwr with capW := c, floorW := f, decayW := d } }
  else m

/-! SOFT_RESET -/

/-- The registers of a page that hold configuration or staged values return to their reset values (R565). -/
def Mod.dropConfig (m : Mod) (pg : Nat) : Mod :=
  match pageBlk pg with
  | some (b, _) => m.dropRegs (fun q off => q = pg && (regRow b off).isSome)
  | none => m

/-- The port reset of R518: its buffers, its counters and its page are cleared, and the port goes DOWN (R359, R403, R519). Kind 5, by command. -/
def Mod.portReset (m : Mod) (i : Nat) : Mod :=
  let m := m.dropRegs (fun q _ => q = pgPort i)
  let m := (m.setPort i { ({} : Port) with st := .disabled }).setPage (pgPort i) {}
  m.emit pgFelt Ev.resetEntry 5 2 0 0

/-- A write of SOFT_RESET = 1 (R565). After a port reset the Felt firmware enables the page again (R516); within a router or module reset it is absorbed
(R521). -/
def Mod.pageSoftReset (m : Mod) (who pg v : Nat) : Mod :=
  match pageBlk pg with
  | none => m
  | some (.port, i) => if m.rt.inReset || (m.powered && m.felt.stage = .waitRel) then m else (m.portReset i).enable (pgPort i)
  | some (b, _) =>
    let p := m.page pg
    if !b.cfg then m
    else if p.enabled || p.busy then m.ignored pg 0x008 v who
    else
      let m := (m.dropConfig pg).identSince m
      let m := if pg = pgEp then { m with clip := { m.clip with tauPending := none } } else m
      m.setPage pg { m.page pg with err := 0, cfgOk := false }

/-! Snapshots of counters -/

/-- SNAP of a page: every counter is copied to its HOLD register and SEQ rises; the module global page captures machine time (R566). In forward-only mode
the Calico page keeps its reset values beside its counters (R569). -/
def Mod.snapPage (m : Mod) (pg : Nat) : Mod :=
  if pg = pgCal && m.fwdOnly then m
  else
  match pageBlk pg with
  | none => m
  | some (b, _) =>
    let m := m.each (blkCounters b) (fun m c => m.setReg pg c.2 (m.reg pg c.1))
    let m := if b = .mg then (m.setReg pg 0x020 (m.time % 2 ^ 32)).setReg pg 0x024 (m.time / 2 ^ 32) else m
    m.setPage pg { m.page pg with snapSeq := ((m.page pg).snapSeq + 1) % 2 ^ 16 }

/-- Every page that R551 lists. -/
def allPages : List Nat := (List.range 0x400).filter (fun pg => (pageBlk pg).isSome)

/-- A write of PG_SNAP.SNAP, and of PG_SNAP.ALL on the module global page (R566). A page that the Felt domain serves discards it (R568). -/
def Mod.pageSnap (m : Mod) (pg : Nat) : Mod := if m.shadow pg then m else m.snapPage pg
def Mod.snapAll (m : Mod) : Mod := m.each (allPages.filter (fun pg => m.reachable pg && !m.shadow pg)) Mod.snapPage

end Sys2Proof.Machine
end

