-- ==== Sys2Proof/Machine/Tree.lean ====
section
/-! DEFINITION. The boards of the machine and the messages of its start-up: the census tree (R537, R539), the entry of this module, and its announcement (R538). -/
namespace Sys2Proof.Machine

/-! The census entry of this module (R539) -/

def portBits (m : Mod) (st : PState) : Nat := (List.range 19).foldl (fun a i => a + b2n ((m.port i).st = st) * 2 ^ i) 0

def Mod.ownEntry (m : Mod) : CensusEntry :=
  { modid := m.modid, state := if m.felt.stage = .halted then 3 else if m.fwdOnly then 2 else 1, stackCount := m.nStacks, active := m.activeEng,
    misplaced := portBits m .misplaced, down := portBits m .down, serial := Config.serial, bootMs := m.felt.bootMs }

/-- The 32 bytes of an entry. -/
def entryBytes (e : CensusEntry) : List Nat :=
  leBytes 2 e.modid ++ [e.state % 256, e.stackCount % 256] ++ leBytes 2 e.active ++ [0, 0] ++ leBytes 4 e.misplaced ++ leBytes 4 e.down
  ++ leBytes 8 e.serial.toNat ++ leBytes 4 e.bootMs ++ [0, 0, 0, 0]

/-- Sends bytes to a module as a MGMT message, and keeps them to send them again (R373, R398). Their layout beyond the entries is the model's (log
entry 29). -/
def Mod.mgmtTo (m : Mod) (dst : Nat) (bs : List Nat) : Mod :=
  ({ m with felt := { m.felt with again := m.felt.again ++ [(dst, bs)] } } : Mod).post .none dst tyMgmt 6 true 0 0 bs

/-- The entries of one MGMT message: at most 31 with the 4 bytes before them (R367). -/
def censusPart : Nat := 31

/-- Sends a report of census entries, in messages of at most 1,024 bytes: each bears its number and how many there are, 0 for an update after the
report (R367, R539). DESIGN CHOICE of layout, log entry 29. -/
def Mod.reportTo (m : Mod) (dst : Nat) (update : Bool) (es : List CensusEntry) : Mod :=
  let parts := chunksOf censusPart es.length es
  m.each parts.zipIdx (fun m (x, i) =>
    m.mgmtTo dst (leBytes 2 i ++ leBytes 2 (if update then 0 else parts.length) ++ (x.map entryBytes).flatten))

/-- The other modules of the board. -/
def Mod.boardPeers (m : Mod) : List Nat := ((List.range 8).filter (fun w => w ≠ m.here.w)).map (fun w => ({ m.here with w } : Coord).id)

/-- Adds a number to a list that holds it at most once. -/
def addOnce (x : Nat) (l : List Nat) : List Nat := if l.contains x then l else l ++ [x]

/-! The census tree -/

/-- A board by its coordinates. -/
def boardOf (id : Nat) : Nat := id / 8

/-- The parent board of a board number (x, y, z in the layout of R6 without w). -/
def parentBoard (b : Nat) : Nat :=
  let c := coordOf (8 * b)
  if c.z ≠ 0 then boardOf ({ c with z := Nat.land c.z (c.z - 1) } : Coord).id
  else if c.y ≠ 0 then boardOf ({ c with y := Nat.land c.y (c.y - 1) } : Coord).id
  else boardOf ({ c with x := Nat.land c.x (c.x - 1) } : Coord).id

def popcount (n : Nat) : Nat := ((List.range 8).map (fun i => bitsOf n i 1)).sum

/-- A board's depth. -/
def boardDepth (b : Nat) : Nat :=
  let c := coordOf (8 * b)
  popcount c.x + popcount c.y + popcount c.z

/-- The child boards of this module's board in the machine. -/
def Mod.childBoards (m : Mod) : List Nat :=
  let own := boardOf m.modid
  let xs := List.range (m.ringLen .x)
  let ys := List.range (m.ringLen .y)
  let zs := List.range (m.ringLen .z)
  (((xs.map (fun x => ys.map (fun y => zs.map (fun z => boardOf (Coord.mk x y z 0).id)))).flatten).flatten).filter (fun b => b ≠ 0 && parentBoard b = own)

/-- Dmax of R537. -/
def log2Up (n : Nat) : Nat := if n ≤ 1 then 0 else (n - 1).log2 + 1
def Mod.dmax (m : Mod) : Nat := log2Up (m.ringLen .x) + log2Up (m.ringLen .y) + log2Up (m.ringLen .z)

/-- This module leads its board. -/
def Mod.leads (m : Mod) : Bool := m.felt.leader = some m.here.w

/-- Sends the table block and T_ACT down the census tree: to the board's other modules and to every module of the child boards. -/
def Mod.tableDown (m : Mod) : Mod :=
  let bs := m.felt.table ++ leBytes 8 (m.felt.tAct.getD 0)
  let m := if m.modid = 0 then m.each m.boardPeers (fun m d => m.mgmtTo d bs) else m
  if m.leads then m.each m.childBoards (fun m b => m.each (List.range 8) (fun m w => m.mgmtTo (8 * b + w) bs)) else m

/-- The module's peers have chosen before it announces itself: 500 ms have passed since the first announcement that it heard (R538). -/
def Mod.lateChoice (m : Mod) : Bool :=
  m.felt.leader.isNone && (match m.felt.announced with
    | some t => decide (t + 500000000 ≤ m.time)
    | none => false)

/-- Announces the module on its seven W ports (R538). Where its peers have chosen it follows the leader they chose. A leader that starts again has a
census update of its own to send, and its board's tables to apply (R519, R540). DEDUCED, log entry 80. -/
def Mod.announce (m : Mod) : Mod :=
  let e := m.ownEntry
  let m := if m.lateChoice then { m with felt := { m.felt with leader := some (m.felt.heard.foldl min 8), choiceAt := m.time } } else m
  let m := m.each m.boardPeers (fun m d => m.mgmtTo d (entryBytes e))
  let f := m.felt
  { m with felt := { f with announced := some (f.announced.getD m.time), heard := addOnce m.here.w f.heard,
                            entries := e :: f.entries.filter (fun x => x.modid ≠ e.modid),
                            updates := if m.leads && f.censusSent then f.updates ++ [e] else f.updates,
                            tAct := if m.leads && !f.table.isEmpty && f.tAct.isNone then some m.time else f.tAct } }

end Sys2Proof.Machine
end

