-- ==== Sys2Proof/Machine/Boot.lean ====
section
/-! DEFINITION. Power states and sideband pins (R507 to R512), the Muslin ROM and the image checks (R513, R514), self-boot (R515, R516), the resets (R518 to R521) with what each spares (R519), and the thermal trip (R535). -/
namespace Sys2Proof.Machine

/-! Image checks -/

/-- BOOT_AUTH_FAIL: image 1 Felt, 2 link, 3 collective; copy; 1 signature, 2 version (R513, R546). -/
def Mod.authFail (m : Mod) (img copy why : Nat) : Mod := m.emit pgFelt Ev.bootAuthFail img copy why 0

/-- Takes copy A, or copy B after copy A has been rejected (R513). Answers whether a copy was accepted. -/
def Mod.authImage (m : Mod) (img a b : Nat) : Mod × Bool :=
  if a = 0 then (m, true)
  else
    let m := m.authFail img 0 a
    if b = 0 then (m.emit pgFelt Ev.bootImageFallback img 0 0 0, true) else (m.authFail img 1 b, false)

/-- The ROM checks both copies in flash and starts the Felt firmware from the one it takes, or stays in recovery (R513). The firmware then awaits the
release. -/
def Mod.rom (m : Mod) (a b : Nat) : Mod :=
  match ({ m with felt := { m.felt with auth := (a, b) } } : Mod).authImage 1 a b with
  | (m, true) =>
    { m with felt := { m.felt with running := true, imageB := decide (a ≠ 0), image := if a = 0 then m.felt.flashA else m.felt.flashB, stage := .waitRel } }
  | (m, false) => m

/-! Power -/

/-- Stacks at a reset: a stack that has failed, or whose fence was asked for, keeps that for the next self-boot (R320, R326, R327). DEDUCED, log entry 60. -/
def Stack.reset (k : Stack) : Stack :=
  match k.st with
  | .fenced => { st := .fenced }
  | .failed => { st := .failed, fencePend := true }
  | _ => { fencePend := k.fencePend }

/-- What the Felt firmware knows of the start-up of the machine is forgotten; requests that wait are answered (R584). -/
def Felt.restart (f : Felt) : Felt :=
  { f with noCoord := false, leader := none, heard := [], entries := [], reports := [], announced := none, censusSent := false, absent := [], table := [],
           tAct := none, updates := [], parts := [], again := [], bootWait := none }

/-- What has work for the host: bit 0 MSI-X, 1 events, 2 mirror, 3 snapshot (R599). -/
def Mod.outWork (m : Mod) : Nat :=
  b2n (!m.host.msixPend.isEmpty) + 2 * b2n (!m.host.evNow.isEmpty || !m.host.evWait.isEmpty || decide (0 < m.host.evLost)) + 4 * b2n (!m.lg.mbuf.isEmpty) + 8 * b2n m.sd.active

/-- The work that a clearing of Bus Master Enable holds; none where it was clear (R578). -/
def Mod.heldWork (m : Mod) : Nat := if m.host.bme then m.outWork else 0

/-- HOST_OUTBOUND_HELD where there is work (R578). -/
def Mod.saidHeld (m : Mod) (work : Nat) : Mod := if work = 0 then m else m.emit pgHost Ev.hostOutboundHeld work (b2n m.host.d3) 0 0

/-- The link leaves L0, and Bus Master Enable is cleared, by a module or cold reset or with the power of the islands (R519, R578, R599). -/
def Mod.hostGone (m : Mod) : Mod :=
  (if m.host.rate = 0 then m else m.emit pgHost Ev.hostLinkDown m.host.rate m.host.width 0 0).saidHeld m.heldWork

/-- The islands beyond Felt are powered off: STANDBY, TRIPPED or OFF (R507, R509). The router and the host interface lose their state as well. -/
def Mod.islandsDark (m : Mod) (st : PowerSt) : Mod :=
  let m := m.hostGone.dropTests.islandsOff
  let m := { m with ports := List.replicate 19 {}, rt := { inc := m.rt.inc }, host := {}, fwdOnly := false, lmap := List.replicate 288 {},
                    nStacks := 0, stks := m.stks.map Stack.reset, dep := { m.dep with cls := List.replicate 16 none } }
  let kept := fun (pg : Nat) => decide (0x0010 ≤ pg) && decide (pg < 0x0020) || pg = pgPwr
  { m with regs := m.regs.filter (fun e => kept (e.1 / 4096)), pages := m.pages.filter (fun e => kept e.1),
           pwr := { m.pwr with st := st, loaded := [], load := false, clk := 16 }, pins := { m.pins with pwrGood := false },
           felt := { m.felt.restart with stage := if m.felt.running then .waitRel else .rom, linkHalt := false } }

/-- RESET_ENTRY: kind, trigger (1 pin, 2 command, 3 power), whether a veto was sent (R521, R546). -/
def Mod.resetEntry (m : Mod) (kind trigger : Nat) (veto : Bool) : Mod := m.emit pgFelt Ev.resetEntry kind trigger (b2n veto) 0

/-- The Felt state after a cold reset: what the flash holds, what the ROM finds there, and the address sampled at power-up stay. -/
def Felt.cold (f : Felt) : Felt := { flashA := f.flashA, flashB := f.flashB, auth := f.auth, fwWriting := f.fwWriting, smb := f.smb }

/-- A cold reset (R518, R519): everything takes its reset value but the fuse map, the non-volatile store, the count of cold resets, the pins that others
drive, and what the model has already reported and sent. With `felt`, at PWR_EN high, FELT_COORD, FELT_MACHINE, FELT_GEOM and FELT_ROLE hold what R510
has the board manager write first. DEDUCED, log entry 30. -/
def Mod.coldReset (m : Mod) (trigger : Nat) (felt : Bool) : Mod :=
  let keep := fun (e : Nat × Nat) => felt && e.1 / 4096 = pgFelt && decide (0x104 ≤ e.1 % 4096) && decide (e.1 % 4096 ≤ 0x110)
  let count := cap32 (m.reg pgFelt 0x188 + 1)
  let m := m.hostGone
  let r : Mod :=
    { fuse := m.fuse, stks := m.stks.map Stack.reset, rt := { inc := m.rt.inc }, events := m.events, out := m.out, free := m.free,
      antiRollback := m.antiRollback,
      dep := { slots := m.dep.slots.map (fun (d : SlotDep) => ({ fenceLog := d.fenceLog || d.fencePend.isSome } : SlotDep)) },
      pins := { pwrEn := m.pins.pwrEn, modResetN := m.pins.modResetN, perstN := m.pins.perstN, slotW := m.pins.slotW },
      felt := m.felt.cold,
      regs := m.regs.filter keep }
  (r.setReg pgFelt 0x188 count).resetEntry 1 trigger false

/-- The islands power up: POWERING, until the next nanosecond of an idle block finds every rail in regulation (R507, R510 step 3). DESIGN CHOICE, log
entry 2. -/
def Mod.powering (m : Mod) : Mod := { m with pwr := { m.pwr with st := .powering } }

/-- P48V_IN_RANGE: the Felt island powers and samples its SMBus address, and the ROM runs; with PWR_EN high the other islands follow (R507, R510, R513,
R584) -/
def execP48vInRange (authA authB : Nat) (s : State) : Host.Outcome State Fault Refusal :=
  run (fun m =>
    if m.felt.running && m.pins.p48v then m
    else
      let m := m.coldReset 3 false
      let m := ({ m with felt := { m.felt with smb := 0x30 + m.pins.slotW % 8 } } : Mod).rom authA authB
      if m.pins.pwrEn && m.felt.running then m.powering else m) s

/-- P48V_LOSS: the module is OFF, and only the non-volatile store survives (R507, R508, R519) -/
def execP48vLoss (s : State) : Host.Outcome State Fault Refusal :=
  run (fun m =>
    if !m.pins.p48v then m
    else
      let r : Mod :=
        { fuse := m.fuse, stks := m.stks.map Stack.reset, rt := { inc := m.rt.inc }, events := m.events, out := m.out, free := m.free,
          dep := { slots := m.dep.slots.map (fun (d : SlotDep) => ({ fenceLog := d.fenceLog || d.fencePend.isSome } : SlotDep)) },
          pins := { p48v := false, pwrEn := m.pins.pwrEn, modResetN := m.pins.modResetN, perstN := m.pins.perstN, slotW := m.pins.slotW },
          antiRollback := m.antiRollback, felt := m.felt.cold, pwr := { st := .off } }
      r.setReg pgFelt 0x188 (m.reg pgFelt 0x188)) s

/-- PWR_INPUT_FAULT with its detail, and forward-only mode (R508). -/
def Mod.inputFault (m : Mod) (vin why code : Nat) : Mod :=
  if m.pwr.st = .on then (m.emit pgPwr Ev.pwrInputFault vin why code 0).forwardOnly 4 else m

/-- PWR_INPUT_FAULT -/
def execPwrInputFault (vin : Nat) (s : State) : Host.Outcome State Fault Refusal :=
  run (fun m => ({ m with pwr := { m.pwr with vin := vin % 65536 } } : Mod).inputFault (vin % 65536) 1 0) s

/-- POWER_STAGE_FAULT -/
def execPowerStageFault (code : Nat) (s : State) : Host.Outcome State Fault Refusal := run (fun m => m.inputFault m.pwr.vin 2 code) s

/-- PWR_EN_HIGH: after STANDBY a cold reset, in which the ROM checks what the flash holds, then POWERING (R507, R509, R510, R513, R518) -/
def execPwrEnHigh (s : State) : Host.Outcome State Fault Refusal :=
  run (fun m =>
    if m.pins.pwrEn then m
    else
      let m := { m with pins := { m.pins with pwrEn := true } }
      if m.pwr.st = .standby && m.felt.running then
        let m := (m.coldReset 1 true).rom m.felt.auth.1 m.felt.auth.2
        if m.felt.running then m.powering else m
      else m) s

/-- PWR_EN_LOW: every island but Felt is powered off, and a thermal trip ends (R507, R509) -/
def execPwrEnLow (s : State) : Host.Outcome State Fault Refusal :=
  run (fun m =>
    let m := { m with pins := { m.pins with pwrEn := false } }
    if m.pwr.st = .off || m.pwr.st = .standby then m
    else
      let m := m.islandsDark .standby
      { m with pins := { m.pins with thermTripN := true } }) s

/-- THERMAL_TRIP (R535): no veto; the pins go low and the module waits in TRIPPED -/
def execThermalTrip (tj sensor : Nat) (s : State) : Host.Outcome State Fault Refusal :=
  run (fun m =>
    if !m.powered then m
    else
      let m := m.islandsDark .tripped
      let m := { m with pins := { m.pins with thermTripN := false }, pwr := { m.pwr with tj := tj % 256, sensor := sensor % 256 } }
      m.emit pgPwr Ev.thermTrip (tj % 256) (sensor % 256) 0 0) s

/-! The host interface's reset -/

/-- Every record from LG_HACK on goes to the mirror again (R487). -/
def Mod.remirror (m : Mod) : Mod :=
  if m.lg.mirrored.isEmpty then m
  else { m with lg := { m.lg with midx := m.reg pgLog 0x11C, mbuf := m.lg.mirrored.map (·.2) ++ m.lg.mbuf, mirrored := [] } }

/-- The PERST# reset of the host interface: its page and its state are cleared, an active snapshot ends, and the mirror starts again (R487, R492, R519). -/
def Mod.hostReset (m : Mod) : Mod :=
  let m := if m.sd.active then m.snapHostError 3 else m
  let m := { m with host := {} }.dropRegs (fun q _ => q = pgHost)
  (m.setPage pgHost {}).remirror

/-! Resets -/

/-- KFAULT and the veto, when the epoch controller is OPEN or VOTING; its packets have left before the reset takes effect (R520). -/
def Mod.resetVeto (m : Mod) : Mod × Bool :=
  let (m, veto) := m.vetoWith shKfault
  (if veto then m.flushVeto else m, veto)

/-- Every open classification closes as lost without an event (R456). -/
def Mod.closeAll (m : Mod) : Mod :=
  m.each (List.range 16) (fun m i =>
    match m.dep.cls.getD i none with
    | some c =>
      let m := (m.closeCls i).transient c.slot
      m.setSlot c.slot { m.slot c.slot with trialPend := false }
    | none => m)

/-- Rotations end: a logical engine that its reserve serves returns to its slot (R469). -/
def Mod.endRotations (m : Mod) : Mod :=
  m.each (List.range 312) (fun m r =>
    match (m.slot r).lentTo with
    | none => m
    | some home =>
      let n := m.logicalOf r
      let m := m.setSlot r { m.slot r with st := .reserve, lentTo := none, passed := false, rotEnd := false }
      if n = 0x1FF then m else (m.setSlot home { m.slot home with st := .active, testFrom := none }).backAgain n home)

/-- Tests under way are abandoned: the slot is what it was (R469). -/
def Mod.endTests (m : Mod) : Mod :=
  m.each (List.range 312) (fun m k =>
    match (m.slot k).testFrom with
    | some st => m.setSlot k { m.slot k with st, testFrom := none }
    | none => m)

/-- Every message of the module's initiators answers to nobody any more. -/
def Mod.orphan (m : Mod) : Mod := { m with rt := { m.rt with msgs := m.rt.msgs.map (fun (x : Msg) => { x with owner := .none }) } }

/-- A compute reset (R37, R239, R257, R519): engines, dispatch and the collective engine. Tests are abandoned, classifications close (R456, R469). DEDUCED, log entry 65. -/
def Mod.computeClear (m : Mod) : Mod :=
  let m := m.each (m.kat.wait.map (·.1)) Mod.katEnd
  let engs := m.engs.map (fun (e : Engine) =>
    ({ st := match e.st with
        | .fenced => EState.fenced
        | .off => EState.off
        | _ => EState.sleep } : Engine))
  let m := { m.emptyStores with engs, ptGroups := [], dsp := { stopped := m.dsp.stopped }, ce := {}, dep := { m.dep with suspects := [] }, pwr := { m.pwr with loaded := [], load := false } }
  let m := m.orphan.dropRegs (fun q off =>
    (decide (0x0080 ≤ q) && decide (q < 0x0280)) || q = pgDsp || (q = pgColl && (decide (off < 0x100) || decide (0x180 ≤ off))))
  let m := { m with pages := m.pages.filter (fun e => e.2.offSaid || !((decide (0x0100 ≤ e.1) && decide (e.1 < 0x0280)) || e.1 = pgDsp)),
                    poison := m.poison.filter (fun x => decide (x < imKey 0 0 0)) }
  let m := m.endRotations.endTests.closeAll
  m.each (List.range 6) Mod.settlePanel

/-- What a module reset clears (R519): all islands but Felt and the router; the Felt firmware goes on with what it knows. -/
def Mod.moduleClear (m : Mod) : Mod :=
  let m := m.hostGone.endRotations.endTests.closeAll
  let m := m.each (List.range 312) (fun m k => match (m.slot k).fencePend with
    | some cause => m.fenceNow k cause
    | none => m)
  let regs := m.regs
  let pages := m.pages
  let before := m
  let m := m.orphan.islandsOff
  let m := { m with host := {}, lmap := List.replicate 288 {}, nStacks := 0, stks := m.stks.map Stack.reset, fwdOnly := false,
                    dep := { m.dep with cls := List.replicate 16 none, suspects := [], dataKeys := [], sramCe := [] } }
  let kept := fun (pg : Nat) => pg = pgFelt || pg = pgTime || (decide (0x0300 ≤ pg) && decide (pg < 0x0323))
  let counts := fun (e : Nat × Nat) =>
    (e.1 / 4096 = pgPwr && (decide (e.1 % 4096 < 0x100) || decide (0x180 ≤ e.1 % 4096)))
    || (decide (0x0040 ≤ e.1 / 4096) && decide (e.1 / 4096 < 0x0060) && [0x180, 0x184, 0x020, 0x024].contains (e.1 % 4096))
  let m : Mod :=
  { m with regs := regs.filter (fun (e : Nat × Nat) => kept (e.1 / 4096) || counts e), pages := pages.filter (fun (e : Nat × Page) => kept e.1 || e.2.offSaid),
           pwr := { m.pwr with st := if m.powered then .on else m.pwr.st, clk := 16, clears := 0, throttle := false, cap := false, load := false, loaded := [],
                               capW := 0x1450, floorW := 0, decayW := 0x64 },
           pins := { m.pins with faultN := true },
           felt := { m.felt with noCoord := false, bootWait := none, stage := if m.felt.linkHalt then .halted else .waitRel } }
  m.identSince before

/-- A module reset begins (R518 to R521): the veto first, then the islands. -/
def Mod.moduleReset (m : Mod) (trigger : Nat) : Mod :=
  let (m, veto) := m.resetVeto
  m.moduleClear.resetEntry 2 trigger veto

/-! Self-boot -/

/-- The Felt firmware enables the router page and then every port page (R516), with the values latched at release (R512). -/
def Mod.routerPages (m : Mod) : Mod :=
  let m := (m.setReg pgRouter 0x104 m.felt.geom).setReg pgRouter 0x108 m.felt.machine
  let m := if m.on pgRouter then m else m.enable pgRouter
  m.each (List.range 19) (fun m i => if m.on (pgPort i) then m else m.enable (pgPort i))

/-- The module is halted: every island but Felt, Router and Host is powered off (R514). -/
def Mod.halt (m : Mod) (link : Bool) : Mod :=
  let m := m.dropTests.islandsOff
  { m with felt := { m.felt with stage := .halted, linkHalt := link } }

/-- Releases the router with a new incarnation once its firmware is accepted (R394, R513, R515 step 1, R516). Messages in flight end with LOCAL_RESET. -/
def Mod.routerRelease (m : Mod) (a b : Nat) : Mod × Bool :=
  match m.authImage 2 a b with
  | (m, false) => (m.halt true, false)
  | (m, true) =>
    let m := m.each m.rt.msgs (fun m x => m.endMsg x 7)
    let m := { m with rt := { inc := (m.rt.inc + 1) % 65536, inReset := false, quarWait := true } }
    (m.routerPages, true)

/-- Self-boot step 2: stacks that are fenced, have failed or do not train are left out, and the interleave is built (R46, R320, R327, R515). DEDUCED, log entry 63. -/
def Mod.bootStacks (m : Mod) (fails : List (Nat × Nat)) : Mod :=
  let m := m.each fails (fun m f => if f.1 < 32 && (m.stk f.1).st ≠ .fenced then m.emit pgFelt Ev.memTrainFail f.1 f.2 0 0 else m)
  let out := fun (i : Nat) => (m.stk i).st = .fenced || (m.stk i).fencePend || fails.any (fun f => f.1 = i)
  let good := (List.range 32).filter (fun i => !out i)
  let fresh := (List.range 32).filter (fun i => out i && (m.stk i).st ≠ .fenced)
  let stks := (List.range 32).map (fun i => if out i then ({ st := StkSt.fenced } : Stack) else { slot := good.findIdx (· = i) })
  let m := { m with stks, nStacks := good.length }
  if good.length < 28 then m.forwardOnly 2
  else m.each fresh (fun m i => m.emit (pgStack i) Ev.stackFenced i good.length 0 0)

/-- Self-boot step 5: every slot that is neither FUSED nor FENCED is tested; a failure fences it (R458, R466, R515). The signatures of a failure
at start-up are free values. -/
def Mod.bootSlot (m : Mod) (fails : List (Nat × Nat)) (k : Nat) : Mod :=
  let d := m.slot k
  if m.fuse.getD k .off = .off then (m.setSlot k { d with st := .fused }).setEng k { st := .off }
  else if d.fenceLog then (m.setSlot k { transients := d.transients, fenceLog := true, st := .fenced }).setEng k { st := .fenced }
  else
    match fails.find? (fun f => f.1 = k) with
    | some f =>
      let (a, m) := m.fresh
      let (b, m) := m.fresh
      let m := (m.bump pgCal 0x1A4 1).emit pgCal Ev.calFail f.2 (a.toNat % 2 ^ 32) (b.toNat % 2 ^ 32) (slotWord k)
      let m := (m.setSlot k { transients := d.transients, fenceLog := true, st := .fenced }).setEng k { st := .fenced }
      let m := m.bump pgCal 0x190 1
      m.emit pgCal Ev.engFenced 3 0x1FF (m.reg pgCal 0x190) (slotWord k)
    | none =>
      let m := m.bump pgCal 0x1A0 1
      ((m.setSlot k { transients := d.transients, st := .reserve, lastPass := m.time, due := m.time + m.calPeriod }).setEng k { st := .sleep }).setPage (pgSlot k) {}

/-- Without steps 3 to 6 of a self-boot, CAL_SLOT is rebuilt from the fuse map and the fence log alone (R472, R515). -/
def Mod.rebuildSlot (m : Mod) (k : Nat) : Mod :=
  let d := m.slot k
  let st := match m.fuse.getD k .off with
    | .off => SlotSt.fused
    | .active => if d.fenceLog then .fenced else .active
    | .reserve => if d.fenceLog then .fenced else .reserve
  m.setSlot k { d with st }

/-- Self-boot step 6 for one panel: the j-th slot assigned at shipment backs logical engine 48p + j when it passed, otherwise the lowest
RESERVE slot left (R47, R515). -/
def Mod.bootMap (m : Mod) (p : Nat) : Mod :=
  let home := ((List.range 52).map (52 * p + ·)).filter (fun k => m.fuse.getD k .off = .active)
  let m := m.each home (fun m k => if (m.slot k).st = .reserve then m.setSlot k { m.slot k with st := .active } else m)
  m.each ((home.take 48).zipIdx) (fun m x =>
    let n := 48 * p + x.2
    if (m.slot x.1).st = .active then { m with lmap := m.lmap.set n { valid := true, slot := x.1 % 52 } }
    else
      match m.reserveOf p with
      | some k => { m.setSlot k { m.slot k with st := .active } with lmap := m.lmap.set n { valid := true, subst := true, slot := k % 52 } }
      | none => { m with lmap := m.lmap.set n {} })

/-- Self-boot step 7 (R515, R538). -/
def Mod.bootDone (m : Mod) (ms : Nat) : Mod :=
  let m := { m with felt := { m.felt with stage := .booted, bootMs := ms } }
  (m.emit pgFelt Ev.bootDone ms m.nStacks m.activeEng (b2n m.fwdOnly)).announce

/-- Self-boot from step 2 (R515). Module memory is written with zeros; what the engine and panel stores hold is not guaranteed (log entry 31). -/
def Mod.selfBoot (m : Mod) (b : BootFacts) : Mod :=
  let m := { m with felt := { m.felt with stage := .selfboot } }
  let m := { m.bootStacks b.trainFail with mem := [], poison := [], once := [] }
  if m.fwdOnly then (m.each (List.range 312) Mod.rebuildSlot).bootDone b.bootMs
  else
    match m.authImage 3 b.collA b.collB with
    | (m, false) => (m.halt false).announce
    | (m, true) =>
      let m := m.each (List.range 312) (fun m k => m.bootSlot b.calFail k)
      let m := m.each (List.range 6) Mod.bootMap
      let m := if m.activeEng < 192 then m.forwardOnly 1 else m
      m.bootDone b.bootMs

/-- The module root starts machine time at its first release after a cold reset (R527). -/
def Mod.rootTime (m : Mod) : Mod := if m.modid = 0 && !m.mt.started then { m with mt := { m.mt with started := true, rootFrom := m.time } } else m

/-- Release (R512, R515): the coordinates are latched, the router is released unless it runs, and self-boot goes on; while a router reset runs, the module
waits for its end (R521). -/
def Mod.release (m : Mod) (b : BootFacts) : Mod :=
  if !m.flag pgFelt 0x104 31 then { m with felt := { m.felt with noCoord := true } }.emit pgFelt Ev.bootNoCoord 0 0 0 0
  else
    let m := { m with modid := m.fld pgFelt 0x104 3 13 * 8 + b.slotW.toNat, pins := { m.pins with slotW := b.slotW.toNat },
                      felt := { m.felt with geom := m.fld pgFelt 0x10C 0 21, machine := m.reg pgFelt 0x108, releaseAt := m.time, noCoord := false } }
    let m := m.rootTime
    if m.rt.cmdReset then { m with felt := { m.felt with bootWait := some b } }
    else if m.rt.inReset then
      match m.routerRelease b.linkA b.linkB with
      | (m, true) => m.selfBoot b
      | (m, false) => m
    else
      ((m.setReg pgRouter 0x104 m.felt.geom).setReg pgRouter 0x108 m.felt.machine).identAll.selfBoot b

/-- MOD_RESET_ASSERT: MOD_RESET_N low holds a module reset (R509, R518, R520); within a cold or module reset in progress it is absorbed, and the module
then awaits the release of the pin (R521) -/
def execModResetAssert (s : State) : Host.Outcome State Fault Refusal :=
  run (fun m =>
    if !m.pins.modResetN then m
    else
      let m := { m with pins := { m.pins with modResetN := false } }
      if !m.powered then m
      else if m.felt.stage = .waitRel then { m with felt := { m.felt with bootWait := none } }
      else m.moduleReset 1) s

/-- MOD_RESET_RELEASE (R509, R512, R515) -/
def execModResetRelease (b : BootFacts) (s : State) : Host.Outcome State Fault Refusal :=
  run (fun m =>
    if m.pins.modResetN then m
    else
      let m := { m with pins := { m.pins with modResetN := true } }
      if m.powered && m.felt.running && m.felt.stage = .waitRel && m.felt.bootWait.isNone then m.release b else m) s

/-- A module reset by FELT_RESET: self-boot goes on from step 2 with the values latched before (R512, R518), when a router reset has ended too (R521). A
module that has not been released has none to go on from. -/
def Mod.commandReset (m : Mod) (b : BootFacts) : Mod :=
  if !m.powered || !m.pins.modResetN || m.felt.noCoord || m.felt.stage = .waitRel then m
  else
    let m := m.moduleReset 2
    if m.felt.linkHalt then m
    else if m.rt.cmdReset then { m with felt := { m.felt with bootWait := some b } }
    else m.selfBoot b

/-- FELT_RESET_MODULE (R518) -/
def execFeltResetModule (b : BootFacts) (s : State) : Host.Outcome State Fault Refusal := run (fun m => if m.felt.running then m.commandReset b else m) s

/-- A cold reset by command: the firmware restarts from the ROM, and with PWR_EN high the islands power up again. A module that has tripped stays so
until PWR_EN goes low (R507, R509, R535). -/
def Mod.commandCold (m : Mod) (a b : Nat) : Mod :=
  let tripped := m.pwr.st = .tripped
  let m := (m.coldReset 2 false).rom a b
  if tripped then { m with pwr := { m.pwr with st := .tripped }, pins := { m.pins with thermTripN := false } }
  else if m.pins.pwrEn && m.felt.running then m.powering
  else m

/-- FELT_RESET_COLD (R513, R518) -/
def execFeltResetCold (authA authB : Nat) (s : State) : Host.Outcome State Fault Refusal :=
  run (fun m => if m.felt.running then m.commandCold authA authB else m) s

/-- A compute reset by command (R518, R520); within a module reset or another compute reset it is absorbed, and with the islands off there is nothing to
reset (R521). It lasts until machine time passes (R399). DESIGN CHOICE, log entry 65. -/
def Mod.commandCompute (m : Mod) : Mod :=
  if m.pwr.st ≠ .on || !m.booted || m.crst then m
  else
    let (m, veto) := m.resetVeto
    ({ m.computeClear with crst := true } : Mod).resetEntry 3 2 veto

/-- FELT_RESET_COMPUTE -/
def execFeltResetCompute (s : State) : Host.Outcome State Fault Refusal := run (fun m => if m.felt.running then m.commandCompute else m) s

/-- A router reset begins: what the router had buffered is lost, and the ports are down until it is released (R399, R400, R518 to R520). -/
def Mod.commandRouter (m : Mod) : Mod :=
  if !m.powered || m.rt.inReset then m
  else
    let (m, veto) := m.resetVeto
    let router := fun (pg : Nat) => decide (0x0300 ≤ pg) && decide (pg < 0x0323)
    let m := { m with rt := { inc := m.rt.inc, cmdReset := true, msgs := m.rt.msgs, sendSeq := m.rt.sendSeq }, ports := List.replicate 19 {},
                      regs := m.regs.filter (fun e => !router (e.1 / 4096)), pages := m.pages.filter (fun e => !router e.1) }
    m.resetEntry 4 2 veto

/-- FELT_RESET_ROUTER -/
def execFeltResetRouter (s : State) : Host.Outcome State Fault Refusal := run (fun m => if m.felt.running then m.commandRouter else m) s

/-- ROUTER_RESET_RELEASE: the router island leaves a router reset (R394, R513, R516), and a module that waited for it boots (R521) -/
def execRouterResetRelease (linkA linkB : Nat) (s : State) : Host.Outcome State Fault Refusal :=
  run (fun m =>
    if m.rt.cmdReset && m.powered && m.felt.running && !m.felt.linkHalt then
      match m.routerRelease linkA linkB with
      | (m, true) =>
        match m.felt.bootWait with
        | some b => ({ m with felt := { m.felt with bootWait := none } } : Mod).selfBoot b
        | none => m
      | (m, false) => { m with felt := { m.felt with bootWait := none } }
    else m) s

/-! PERST# -/

/-- PERST_N_ASSERT: the host interface is reset; within a module reset that is absorbed (R509, R518, R521) -/
def execPerstNAssert (s : State) : Host.Outcome State Fault Refusal :=
  run (fun m =>
    if !m.pins.perstN then m
    else
      let m := { m with pins := { m.pins with perstN := false } }
      if m.powered && m.pins.modResetN && m.felt.stage ≠ .waitRel then (m.hostReset.saidHeld m.heldWork).resetEntry 6 1 false else m) s

/-- PERST_N_RELEASE: the link may train (R510 step 5) -/
def execPerstNRelease (s : State) : Host.Outcome State Fault Refusal := run (fun m => { m with pins := { m.pins with perstN := true } }) s

end Sys2Proof.Machine
end

