-- ==== Sys2Proof/Machine/Time.lean ====
section
/-! DEFINITION. Machine time: ticks, time frames and their offset, and LOCKED (R526 to R532). -/
namespace Sys2Proof.Machine

/-- The parent port: MT_PARENT, else the link of R530, or its bundle partner when it is not UP; none on the module root. -/
def Mod.parentPort (m : Mod) : Option Nat :=
  let c := m.here
  if m.flag pgTime 0x11C 5 then some (m.fld pgTime 0x11C 0 5)
  else
    let first := if c.z / 2 > 0 then some 17 else if c.y / 2 > 0 then some 13 else if c.x / 2 > 0 then some 9 else none
    first.map (fun i => if (m.port i).st = .up then i else i + 1)

def Mod.tickMaster (m : Mod) : Bool := m.flag pgFelt 0x110 0

/-- MT_STATUS.PARENT (R530). -/
def Mod.parentField (m : Mod) : Nat := if m.tickMaster then m.parentPort.getD 0x1F else 0x1F

/-- The 32-bit word of a signed number. -/
def word32 (x : Int) : Nat := (x % 2 ^ 32).toNat

/-- Enters LOCKED (R532). -/
def Mod.lock (m : Mod) : Mod :=
  if m.mt.locked then m
  else { m with mt := { m.mt with locked := true } }.emit pgTime Ev.timeLock m.parentField (word32 m.mt.off) (word32 m.mt.rate) 0

/-- Leaves LOCKED: 1 offset, 2 no tick (R532). -/
def Mod.unlock (m : Mod) (why : Nat) : Mod :=
  if m.mt.locked then { m with mt := { m.mt with locked := false, goodFrames := 0 } }.emit pgTime Ev.timeUnlock m.parentField (word32 m.mt.off) why 0
  else m

/-- A correction of the count by a number of nanoseconds: forward it is a step; backward a slew, of which machine time takes a part as it passes; above
1 µs it raises TIME_STEP (R526). -/
def Mod.correct (m : Mod) (ns : Int) : Mod :=
  let m := { m with time := m.time + ns.toNat, mt := { m.mt with slew := (-ns).toNat * 1000000000 } }
  if ns.natAbs > 1000 then
    let w := (ns % 2 ^ 64).toNat
    m.emit pgTime Ev.timeStep (w % 2 ^ 32) (w / 2 ^ 32) 0 0
  else m

/-- The time of a frame at the physical coding layer, in ps with a resolution of 100 ps (R531). -/
def Mod.stamp (m : Mod) : Nat := 1000 * m.time + 100 * (m.mt.frac / 100000000).toNat

/-- MT_ASYM, in ps (R531). -/
def Mod.asym (m : Mod) : Int := (BitVec.ofNat 32 (m.reg pgTime 0x114)).toInt

/-- The 64 time frames of a service frame on the parent link (R531). -/
def Mod.timeFrames (m : Mod) : Mod :=
  match m.parentPort with
  | some i => if (m.port i).st = .up then m.each (List.range 64) (fun m _ => m.send (.timeFrame i m.stamp)) else m
  | none => m

/-- Order 1 of a frame: a tick master sends 64 time frames on its parent link and steers its rate, by at most 100 ppm towards the parent's time, so that
the offset goes to zero; how far is a free value. The offset decides LOCKED (R531, R532). It is that of the last answer, or of the frames as the frame's
operand measures them, each less MT_ASYM. The module root has no parent, and its offset is zero. DESIGN CHOICE, log entry 61. -/
def Mod.steer (m : Mod) (measured : Option Int) : Mod :=
  if !m.tickMaster then m
  else
    let m := m.timeFrames
    match (if !m.mt.started then none
           else if m.modid = 0 && m.parentPort.isNone then some (0 : Int) else m.mt.seen.or (measured.map (· - m.asym))) with
    | none => m
    | some ps =>
      let (v, m) := m.fresh
      let rate : Int := if ps = 0 then m.mt.rate else ps.sign * (v.toNat % 100000 + 1 : Nat)
      let good := if ps.natAbs ≤ 5000 then m.mt.goodFrames + 1 else 0
      let m := { m with mt := { m.mt with off := ps, rate, seen := none, goodFrames := good } }
      let m := if ps.natAbs > 1000000 then m.correct (ps / 1000) else m
      if ps.natAbs > 25000 then m.unlock 1
      else if good ≥ 16 then m.lock
      else m

/-- The count's sub-millisecond part, less MT_TICKDLY, is zero at an edge: what is nearer, on or back (R529). -/
def Mod.align (m : Mod) : Mod :=
  let d := m.fld pgTime 0x118 0 16 / 100
  let ahead := (m.time + 1000000 - d % 1000000) % 1000000
  if ahead ≠ 0 && 1000000 - ahead ≤ ahead then m.correct ((1000000 - ahead : Nat) : Int) else m.correct (-((ahead : Nat) : Int))

/-- The tick master's count is at, or has passed, a whole millisecond for which it has driven no edge (R529). -/
def Mod.tickDue (m : Mod) : Bool :=
  m.mt.started && (match m.mt.lastTick with
    | some t => decide (t / 1000000 < m.time / 1000000)
    | none => m.time % 1000000 = 0 || decide (m.mt.rootFrom / 1000000 < m.time / 1000000))

/-- RACK_TICK_EDGE: the tick master drives an edge at each whole millisecond; any other module aligns the sub-millisecond part of its count, less
MT_TICKDLY, and is LOCKED (R529, R532) -/
def execRackTickEdge (s : State) : Host.Outcome State Fault Refusal :=
  run (fun m =>
    if !m.felt.running then m
    else if m.tickMaster then (if m.tickDue then { m with mt := { m.mt with lastTick := some m.time } }.send .tick else m)
    else
      let m := if m.mt.started then m.align else m
      ({ m with mt := { m.mt with lastTick := some m.time } } : Mod).lock) s

/-- RACK_TICK_LOSS: no edge for 2 ms (R532) -/
def execRackTickLoss (s : State) : Host.Outcome State Fault Refusal :=
  run (fun m => ({ m with mt := { m.mt with lastTick := none } } : Mod).unlock 2) s

/-- TIME_FRAME: a neighbour's frame is answered with this module's timestamps in ps; an answer on the parent link gives the offset; the first exchange
gives the count (R527, R531) -/
def execTimeFrame (i : Nat) (t : TimeFacts) (s : State) : Host.Outcome State Fault Refusal :=
  run (fun m =>
    if (m.port i).st ≠ .up || !m.felt.running || 19 ≤ i then m
    else
      match t with
      | .ask _ => m.send (.timeAnswer i m.stamp m.stamp m.mt.locked)
      | .answer t1 t2 t3 t4 =>
        if m.mt.started && m.parentPort = some i then
          let off := ((t2 - t1) - (t4 - t3)) / 2 - m.asym
          { m with mt := { m.mt with off, seen := some off } }
        else m
      | .first time locked =>
        if m.modid = 0 then
          if locked && m.mt.started && decide (m.time < m.mt.rootFrom + 10000000) then { m with time := max m.time time } else m
        else if m.mt.started then m
        else { m with time, mt := { m.mt with started := true } }) s

/-- A read of MT_LO latches MT_HI (R542). -/
def Mod.mtLo (m : Mod) : Mod × Nat := ({ m with mt := { m.mt with hiLatch := m.time / 2 ^ 32 % 2 ^ 32 } }, m.time % 2 ^ 32)

end Sys2Proof.Machine
end

