-- ==== Sys2Proof/Machine/Registers.lean ====
section
/-! DEFINITION. Register accesses (R11 to R14, R547 to R569): what every register reads as, what a write does, accesses of 4 and 8 bytes, pages that do not answer, sleeping and powered-off domains, and the rows of the page header. -/
namespace Sys2Proof.Machine

/-! The header -/

/-- The slot of an engine page's instance. -/
def slotOfInst (i : Nat) : Nat := 52 * (i / 64) + i % 64

/-- PG_STATUS.ENABLED (R512, R555, R199). -/
def Mod.enabledOf (m : Mod) (pg : Nat) : Bool :=
  match pageBlk pg with
  | some (.mg, _) => true
  | some (.panel, _) => true
  | some (.felt, _) => m.pins.modResetN
  | some (.engine, i) => (m.eng (slotOfInst i)).task.isSome
  | some _ => m.on pg
  | none => false

/-- PG_STATUS.AWAKE: the domain is powered and its clock runs. The Calico page reads its reset value in forward-only mode (R569). -/
def Mod.awake (m : Mod) (pg : Nat) : Bool :=
  match pageBlk pg with
  | some (.engine, i) => (m.eng (slotOfInst i)).st ≠ .sleep
  | some (.cal, _) => !m.fwdOnly
  | _ => true

/-- PG_STATUS; it reads 0 on a page that the Felt domain serves for an island (R568). -/
def Mod.pgStatus (m : Mod) (pg : Nat) (b : Blk) : Nat :=
  if m.shadow pg then 0
  else b2n (m.enabledOf pg) + 2 * b2n (m.page pg).busy + 4 * b2n (!b.cfg || (m.page pg).cfgOk) + 8 * b2n (m.awake pg)

/-- PG_FEAT (R553, R554). -/
def Mod.pgFeat (m : Mod) (pg : Nat) (b : Blk) : Nat :=
  let sh := m.shadow pg
  let slow := slowPage b || (b = .cal && m.fwdOnly) || sh
  b2n b.cfg + 2 * b2n b.staged + 4 * b2n slow + 8 * b2n (decide (b = .engine)) + 16 * b2n sh + 32 * b2n b.cfg
  + 2 ^ 31 * b2n (decide (b = .mg) && Config.gradeS)

/-! Read-only registers of the blocks -/

/-- STK_STATUS (R353). -/
def Stack.word (k : Stack) : Nat := k.st.code + 4 * b2n k.fencePend + 256 * (if k.st = .fenced then 0x1F else k.slot)

/-- ENG_STATUS (R199). -/
def Mod.engStatus (m : Mod) (k : Nat) : Nat :=
  let e := m.eng k
  let tiles := ((List.range 8).map (fun i => b2n (e.getTile i).isSome * 2 ^ i)).sum
  e.st.code * 2 ^ 29 + b2n e.suspect * 2 ^ 28 + tiles * 2 ^ 20 + m.logicalOf k

def Mod.engReg (m : Mod) (k off : Nat) : Nat :=
  let e := m.eng k
  match off with
  | 0x100 => m.engStatus k
  | 0x108 => e.faultCode * 65536 + e.faultTag
  | 0x10C => e.faultBank * 32768 + e.faultPc
  | 0x110 => e.faultAddr % 2 ^ 32
  | 0x114 => e.faultAddr / 2 ^ 32 % 2 ^ 28
  | 0x118 => e.active + 2 * b2n e.loading
  | _ => 0

def Mod.mgReg (m : Mod) (off : Nat) : Nat :=
  match off with
  | 0x100 => m.modid
  | 0x104 => 2 ^ 31 * b2n m.fwdOnly + 65536 * m.nStacks + m.activeEng
  | 0x108 => 80 * m.nStacks
  | _ => if 0x400 ≤ off && off < 0x400 + 4 * 288 && off % 4 = 0 then (m.lmap.getD ((off - 0x400) / 4) {}).word else 0

/-- FELT_BOOT and FELT_COORD, whose W field shows SLOT_W (R542). -/
def Mod.feltReg (m : Mod) (off : Nat) : Nat :=
  match off with
  | 0x100 => m.felt.stage.code + 16 * b2n m.felt.imageB + 32 * b2n m.felt.debugOpen + 64 * b2n m.leads
  | 0x104 => m.reg pgFelt 0x104 / 8 * 8 + m.pins.slotW % 8
  | 0x138 => 0
  | _ => m.reg pgFelt off

def Mod.timeReg (m : Mod) (off : Nat) : Nat :=
  match off with
  | 0x104 => m.mt.hiLatch
  | 0x108 => b2n m.mt.locked + 2 * b2n (m.modid = 0 && m.mt.started) + 4 * m.parentField
  | 0x10C => word32 m.mt.off
  | 0x110 => word32 m.mt.rate
  | _ => m.reg pgTime off

def Mod.routerReg (m : Mod) (off : Nat) : Nat :=
  match off with
  | 0x174 =>
    let transit := m.ports.any (fun p => p.transit.isSome)
    m.outstanding % 65536 + 2 ^ 16 * b2n m.rt.quar + 2 ^ 17 * b2n transit + 2 ^ 18 * b2n (!transit && m.ports.all (fun p => p.buf.isEmpty))
  | 0x178 => m.rt.inc
  | 0x17C => 0x0101
  | _ => m.reg pgRouter off

def Mod.portReg (m : Mod) (i off : Nat) : Nat :=
  let p := m.port i
  match off with
  | 0x100 => p.st.code + 8 * b2n p.swapped + 16 * (p.lanes % 16) + 256 * (p.peerPort % 32) + 65536 * (p.ver % 256) + 2 ^ 24 * b2n p.holdIn + 2 ^ 25 * b2n p.holdOut
  | 0x104 => p.peerMod + 65536 * p.peerInc
  | 0x108 => p.peerSerial.toNat % 2 ^ 32
  | 0x10C => p.peerSerial.toNat / 2 ^ 32
  | _ => m.reg (pgPort i) off

def Mod.epReg (m : Mod) (off : Nat) : Nat :=
  match off with
  | 0x1C0 => 0
  | 0x1C4 => m.ep.st.code + 8 * b2n m.ep.snapActive
  | 0x1C8 => m.ep.step
  | 0x1CC => m.ep.sh.toNat
  | 0x1D0 => m.ep.shSlice.toNat
  | 0x1D4 => m.ep.shLate.toNat
  | 0x1D8 => m.ep.outcome
  | 0x1DC => m.poolFree
  | 0x1E0 => m.ep.minFree
  | 0x820 => m.jtFree false
  | 0x824 => m.jtFree true
  | 0x828 => m.js.minFree
  | 0x908 => m.clip.step
  | 0x90C => m.clip.norm
  | 0x910 => m.clip.factor
  | _ => m.reg pgEp off

def Mod.logReg (m : Mod) (off : Nat) : Nat :=
  match off with
  | 0x140 => b2n m.lg.restored + 2 * b2n m.lg.forced + 4 * b2n m.lg.stall + 8 * b2n m.lg.diverged + 16 * b2n m.lg.orderLost
  | 0x144 => m.lg.next
  | 0x148 => m.lg.midx
  | _ => m.reg pgLog off

def Mod.snapReg (m : Mod) (off : Nat) : Nat :=
  match off with
  | 0x114 => b2n m.sd.active + 2 * b2n m.sd.done + 4 * b2n m.sd.aborted
  | 0x118 => m.sd.step
  | 0x11C => m.snapLeft
  | _ => m.reg pgSnap off

def Mod.hostReg (m : Mod) (off : Nat) : Nat :=
  match off with
  | 0x100 => m.host.rate + 16 * m.host.width + 2 ^ 9 * b2n m.host.flit + 2 ^ 10 * b2n m.host.bme + 2 ^ 11 * b2n m.host.d3
  | 0x120 => m.host.prod
  | 0x128 => m.host.cons
  | _ => m.reg pgHost off

/-- The words of DEP_CLS[i] (R471). -/
def clsWord (c : Cls) (w : Nat) : Nat :=
  match w with
  | 0 => 2 ^ 31 + c.kind % 4 * 2 ^ 29 + c.stage % 4 * 2 ^ 27 + c.key.tile % 8 * 2 ^ 24 + c.slot / 52 * 2 ^ 21 + c.slot % 52 * 2 ^ 15 + c.key.eng % 512
  | 1 => c.key.opid % 2 ^ 32
  | 2 => c.key.step % 2 ^ 32
  | 3 => c.key.ebase % 2 ^ 32
  | 4 => c.key.ebase / 2 ^ 32 % 2 ^ 12
  | _ => 0

/-- CAL_SLOT[p][s] (R454, R457, R467, R471). -/
def Mod.calSlot (m : Mod) (k : Nat) : Nat :=
  let s := m.slot k
  s.st.code + 8 * b2n s.untested + 16 * min 3 s.misses + 256 * min 63 (m.transientCount k) + 65536 * (if s.st = .fused then 0 else m.ageH k)

def Mod.calReg (m : Mod) (off : Nat) : Nat :=
  if off = 0x10C then
    (m.dep.cls.filter (·.isSome)).length + 256 * ((m.dep.slots.filter (fun s => s.st = .test)).length % 256)
  else if 0x300 ≤ off && off < 0x500 then
    match m.dep.cls.getD ((off - 0x300) / 32) none with
    | some c => clsWord c ((off - 0x300) % 32 / 4)
    | none => 0
  else if 0x600 ≤ off && off < 0xC00 then
    let i := (off - 0x600) / 4
    if i % 64 < 52 then m.calSlot (slotOfInst i) else 0
  else m.reg pgCal off

def Mod.pwrReg (m : Mod) (off : Nat) : Nat :=
  match off with
  | 0x100 => m.pwr.st.code + 8 * b2n m.pins.pwrGood + 16 * b2n m.pwr.throttle + 32 * b2n m.pwr.cap + 64 * b2n m.pwr.load
  | 0x104 => m.pwr.watts + 65536 * m.pwr.vin
  | 0x108 => m.pwr.tj + 256 * m.pwr.sensor
  | _ => m.reg pgPwr off

/-! A read -/

/-- A register of a block beyond the header, without the counters and the reads that latch. DEDUCED, log entry 53. -/
def Mod.blkReg (m : Mod) (b : Blk) (i pg off : Nat) : Nat :=
  match b with
  | .mg => m.mgReg off
  | .felt => m.feltReg off
  | .mt => m.timeReg off
  | .stack =>
    match off with
    | 0x100 => (m.stk i).word
    | 0x110 => (m.stk i).errAddr % 2 ^ 32
    | 0x114 => (m.stk i).errAddr / 2 ^ 32 % 32
    | _ => m.reg pg off
  | .panel => if off = 0x100 then (m.ptGroups.filter (fun g => g.panel = i)).length % 16 else m.reg pg off
  | .engine => if off = 0x104 || 0x180 ≤ off then m.reg pg off else m.engReg (slotOfInst i) off
  | .router => m.routerReg off
  | .port => m.portReg i off
  | .ce => if off = 0x11C then (m.ctx m.ce.lastCtx).state.code else m.reg pg off
  | .dsp => if off = 0x11C then (m.queue m.dsp.lastQueue).state.code else if off = 0x138 then m.dsp.evHi else m.reg pg off
  | .ep => m.epReg off
  | .lg => m.logReg off
  | .sd => m.snapReg off
  | .host => m.hostReg off
  | .cal => m.calReg off
  | .rng => if off = 0x10C then b2n m.kat.pass + 2 * b2n m.kat.done else m.reg pg off
  | .pwr => m.pwrReg off

/-- What a page reads as that the Felt domain serves for an island (R568). -/
def Mod.shadowReg (m : Mod) (b : Blk) (i off : Nat) : Nat :=
  match b with
  | .engine => if off = 0x100 then (m.eng (slotOfInst i)).st.code * 2 ^ 29 + 0x1FF else 0
  | .stack => if off = 0x100 then 3 + 256 * 0x1F else 0
  | _ => 0

/-- The value of a register of a page that answers, with what the read latches (R11, R317, R542, R555). -/
def Mod.regValue (m : Mod) (b : Blk) (i pg off : Nat) : Mod × Nat :=
  if off = 0x000 then (m, b.type * 2 ^ 24 + i * 256 + 1)
  else if off = 0x004 then (m, m.pgFeat pg b)
  else if m.shadow pg then (m, m.shadowReg b i off)
  else if off = 0x008 then (m, b2n (m.enabledOf pg))
  else if off = 0x00C then (m, m.pgStatus pg b)
  else if off = 0x010 then (m, (m.page pg).err)
  else if off = 0x014 then (m, (m.page pg).errEn)
  else if off = 0x01C then (m, (m.page pg).snapSeq)
  else if off < 0x100 then (m, m.reg pg off)
  else if b = .mt && off = 0x100 then m.mtLo
  else if b = .dsp && off = 0x134 then m.evValRead
  else if (blkCounters b).any (fun c => c.1 = off) then (m, m.reg pg off)
  else (m, m.blkReg b i pg off)

/-! A write -/

/-- A page whose configuration may be written now (R512, R559, R560). -/
def Mod.cfgOpen (m : Mod) (pg : Nat) : Bool := !m.enabledOf pg && !(m.page pg).busy

/-- A write to a register with writable bits, by its access (R11, R14, R559, R560). In forward-only mode every field of the Calico page reads its
reset value, so that nothing of it can be set (R569). DEDUCED, log entries 51 and 54. -/
def Mod.rowWrite (m : Mod) (b : Blk) (pg : Nat) (r : RegRow) (v who : Nat) : Mod :=
  if b = .cal && m.fwdOnly then m
  else if b = .felt && (r.off = 0x130 || r.off = 0x134) then
    if m.modid = 0 then m.setReg pg r.off (Nat.land v r.mask) else m.ignored pg r.off v who
  else
    match r.acc with
    | .cfg => if m.cfgOpen pg then (m.setReg pg r.off (Nat.land v r.mask)).identSince m else m.ignored pg r.off v who
    | .live => if b = .lg && r.off = 0x11C then m.lgAck v else m.setReg pg r.off (Nat.land v r.mask)
    | .stg => m.setReg pg r.off (Nat.land v r.mask)

/-- A write of HI_EVR_ACK: the new consumer index, and waiting records go out (R580, R582). -/
def Mod.evrAck (m : Mod) (who v : Nat) : Mod :=
  if !m.acts pgHost then m.ignored pgHost 0x124 v who
  else ({ m with host := { m.host with cons := v % 2 ^ 32 } } : Mod).evrFlush

/-- A write of FELT_RESET (R518). What a reset meets on the way up is as it should be: no check fails, and the time that self-boot takes is a free
value (log entry 33). -/
def Mod.feltResetWrite (m : Mod) (v : Nat) : Mod :=
  if bitsOf v 0 16 ≠ 0x5AFE then m
  else
    match bitsOf v 29 3 with
    | 1 => m.commandCompute
    | 2 => m.commandRouter
    | 3 =>
      let (v, m) := m.fresh
      m.commandReset { bootMs := v.toNat % 2 ^ 32 }
    | 4 => m.commandCold 0 0
    | _ => m

/-! Accesses of 4 bytes -/

/-- The local address of a register (R547). -/
def regAddr (pg off : Nat) : Nat := 0xF2000000000 + pg * 4096 + off

/-- The initiator of a register access, by its code (R41, R355, R572). -/
def Mod.regInit (m : Mod) (who : Nat) : Init := m.initOf who 0

/-- An access by an initiator that may reach register space, to a page that answers (R41, R550, R551). DESIGN CHOICE, log entry 47. -/
def Mod.regReach (m : Mod) (who pg : Nat) : Except Nat (Blk × Nat) :=
  if who ≠ hostCode && who ≠ feltCode then .error Ev.addrRefused
  else
    match pageBlk pg with
    | some x => if m.reachable pg then .ok x else .error Ev.addrUnbacked
    | none => .error Ev.addrUnbacked

/-- A register access finds a sleeping engine awake: its clock starts in its turn, and stops again when it has been idle (R32, R304, R567). -/
def Mod.wakePage (m : Mod) (b : Blk) (i : Nat) : Mod := if b = .engine then m.wakeNow (slotOfInst i) else m

/-- A read of 4 bytes; none where it is refused. -/
def Mod.regRead4 (m : Mod) (who pg off : Nat) : Mod × Option Nat :=
  match m.regReach who pg with
  | .error c => (m.addrEvent (m.regInit who) c (regAddr pg off), none)
  | .ok (b, i) =>
    let (m, v) := (m.wakePage b i).regValue b i pg off
    (m, some v)

/-- A read by the Felt management controller of n bytes on a 4-byte boundary: from register space word by word, else as any load (R41, R547).
DEDUCED, log entry 102. -/
def Mod.feltLoad (m : Mod) (a n : Nat) : Mod × Load :=
  match regionOf a with
  | .regs =>
    (List.range (n / 4)).foldl (fun s i =>
      match s with
      | (m, .ok bs) =>
        let o := a - regAddr 0 0 + 4 * i
        match m.regRead4 feltCode (o / 4096) (o % 4096) with
        | (m, some v) => (m, .ok (bs ++ leBytes 4 v))
        | (m, none) => (m, .refused (a + 4 * i) Ev.addrUnbacked)
      | s => s) (m, .ok [])
  | _ => m.load .felt a n

/-- A write of FELT_TABLE_HI, which acts on module (0, 0, 0, 0) alone (R540, R542). -/
def Mod.tableWrite (m : Mod) (who v : Nat) : Mod :=
  if m.modid ≠ 0 || !m.booted then m.ignored pgFelt 0x13C v who
  else
    let a := m.reg pgFelt 0x138 / 64 * 64 + bitsOf v 0 12 * 2 ^ 32
    match m.feltLoad a 64 with
    | (m, .ok bs) => ({ m with felt := { m.felt with table := bs, tAct := some (m.time + m.dmax * 50000000 + 100000000) } } : Mod).tableDown
    | (m, _) => m

/-- A write of STK_CMD: the fence request is kept for the next reset (R353). -/
def Mod.stkCmd (m : Mod) (who i v : Nat) : Mod :=
  if !m.acts (pgStack i) then m.ignored (pgStack i) 0x108 v who
  else if v % 2 = 1 then m.setStk i { m.stk i with fencePend := true }
  else m

/-- A command field of a block, by its offset (R317, R351, R353, R438, R471, R504, R518, R540, R582); none where the register is no command. -/
def Mod.cmdWrite (m : Mod) (b : Blk) (i off v who : Nat) : Option Mod :=
  match b, off with
  | .felt, 0x120 => some (m.feltResetWrite v)
  | .felt, 0x138 => some (if m.modid = 0 then m.setReg pgFelt 0x138 (v / 64 * 64) else m.ignored pgFelt 0x138 v who)
  | .felt, 0x13C => some (m.tableWrite who v)
  | .stack, 0x108 => some (m.stkCmd who i v)
  | .ce, 0x118 =>
    some (if !m.acts pgColl then m.ignored pgColl off v who
          else if 1 ≤ bitsOf v 29 3 && bitsOf v 29 3 ≤ 3 then m.ctxCmd who (bitsOf v 29 3) (bitsOf v 0 8) else m)
  | .ce, 0x120 => some (if !m.acts pgColl then m.ignored pgColl off v who else m.ceDoorbell who (bitsOf v 24 8) (bitsOf v 0 19))
  | .dsp, 0x118 =>
    some (if !m.acts pgDsp then m.ignored pgDsp off v who
          else if 1 ≤ bitsOf v 29 3 && bitsOf v 29 3 ≤ 3 then m.queueCmd who (bitsOf v 29 3) (bitsOf v 0 13) else m)
  | .dsp, 0x120 => some (m.doorbell who (bitsOf v 19 13) (bitsOf v 0 19))
  | .dsp, 0x144 => some (if !m.acts pgDsp then m.ignored pgDsp off v who else m.evCmd who (bitsOf v 0 2))
  | .ep, 0x1C0 => some (if !m.acts pgEp then m.ignored pgEp off v who else m.epCmd who (bitsOf v 0 4))
  | .ep, 0x1D4 => some { m with ep := { m.ep with shLate := m.ep.shLate &&& ~~~(BitVec.ofNat 32 v) } }
  | .lg, 0x130 => some (m.lgSet who v)
  | .host, 0x124 => some (m.evrAck who v)
  | .cal, 0x108 => some (m.depCmd who v)
  | .rng, 0x110 => some (if bitAt v 0 then m.katStart [] else m)
  | _, _ => none

/-- One write of PG_CTRL: SOFT_RESET alone, else COMMIT and then the change of ENABLE (R556). -/
def Mod.pgCtrl (m : Mod) (who pg v : Nat) : Mod :=
  if bitAt v 1 then m.pageSoftReset who pg v
  else
    let m := if bitAt v 2 then m.pageCommit pg else m
    if !bitAt v 16 then m else if bitAt v 0 then m.pageEnable who pg v else m.pageDisable who pg v

/-- A write of PG_ERR clears bits (R557). TIMEOUT exists on the module global page alone. -/
def Mod.pgErrWrite (m : Mod) (pg v : Nat) : Mod :=
  m.setPage pg { m.page pg with err := Nat.land (m.page pg).err (Nat.xor 0x10F (Nat.land v 0x10F)) }

/-- A write of PG_ERR_EN: each enable bit changes where its mask bit is 1 (R11, R558). In forward-only mode that of the Calico page stays at its reset
value (R569). -/
def Mod.pgErrEnWrite (m : Mod) (pg v : Nat) : Mod :=
  let mask := if pg = pgCal && m.fwdOnly then 0 else Nat.land (v / 65536) 0x10F
  let old := (m.page pg).errEn
  m.setPage pg { m.page pg with errEn := Nat.lor (Nat.land old (Nat.xor 0x10F mask)) (Nat.land v mask) }

/-- A write of PG_SNAP (R566): ALL exists on the module global page alone. -/
def Mod.pgSnapWrite (m : Mod) (b : Blk) (pg v : Nat) : Mod :=
  if b = .mg && bitAt v 1 then m.snapAll else if bitAt v 0 then m.pageSnap pg else m

/-- The island of a page that the Felt domain serves: 5 FENCED or 6 OFF (R572). DEDUCED, log entry 48. -/
def Mod.islandState (m : Mod) (b : Blk) (i : Nat) : Nat :=
  match b with
  | .engine => (m.eng (slotOfInst i)).st.code
  | .stack => 5
  | _ => 6

/-- A write to a page that answers (R11, R13, R556, R568). -/
def Mod.regPut (m : Mod) (b : Blk) (i pg off v who : Nat) : Mod :=
  if m.shadow pg then
    if (m.page pg).offSaid then m
    else (m.setPage pg { m.page pg with offSaid := true }).emit pg Ev.regPageOff off v who (m.islandState b i)
  else if off = 0x008 then m.pgCtrl who pg v
  else if off = 0x010 then m.pgErrWrite pg v
  else if off = 0x014 then m.pgErrEnWrite pg v
  else if off = 0x018 then m.pgSnapWrite b pg v
  else if off < 0x100 then m
  else
    match m.cmdWrite b i off v who with
    | some m => m
    | none =>
      match regRow b off with
      | some r => m.rowWrite b pg r v who
      | none => m

/-! Accesses -/

/-- A write of 4 bytes. -/
def Mod.regWrite4 (m : Mod) (who pg off v : Nat) : Mod :=
  match m.regReach who pg with
  | .error c => m.addrEvent (m.regInit who) c (regAddr pg off)
  | .ok (b, i) => (m.wakePage b i).regPut b i pg off (v % 2 ^ 32) who

/-- A completion goes to the host; it counts its Unsupported Requests (R583). The Felt controller takes its answers itself. -/
def Mod.complete (m : Mod) (who : Nat) (c : Cpl) : Mod :=
  if who = hostCode then (if c = .ur then m.bump pgHost 0x188 1 else m).send (.cpl c) else m

/-- An access of another size or alignment (R548): 1 read, 2 write. -/
def Mod.accessBad (m : Mod) (who pg off size rw : Nat) : Mod :=
  let at' := if m.reachable pg then pg else pgGlobal
  (m.pageErr at' 2 Ev.regAccessBad (pg * 4096 + off) size who rw).complete who .ur

/-- The access is one of those that registers accept (R548). -/
def sizeOk (off size : Nat) : Bool := (size = 4 && off % 4 = 0) || (size = 8 && off % 8 = 0)

/-- The host reaches no BAR in D3hot (R577). -/
def Mod.barOff (m : Mod) (who : Nat) : Bool := who = hostCode && m.host.d3

/-- A page's domain has not answered: 1 read, 2 write (R567). -/
def Mod.regLate (m : Mod) (who pg off rw : Nat) : Mod := m.pageErr pgGlobal 3 Ev.regTimeout pg off who rw

/-- One half of a write, which is discarded when it is late (R548, R567). -/
def Mod.putHalf (m : Mod) (who pg off v : Nat) (late : Bool) : Mod := if late then m.regLate who pg off 2 else m.regWrite4 who pg off v

/-- A register write of the given size; `lo` and `hi` are the halves that are late (R548, R549, R567). In D3hot it is posted and lost. DEDUCED, log entry
55. -/
def Mod.regWrite (m : Mod) (who pg off size v : Nat) (lo hi : Bool) : Mod :=
  if m.barOff who then m
  else if !sizeOk off size then m.accessBad who pg off size 2
  else
    let m := m.putHalf who pg off v lo
    if size = 8 then m.putHalf who pg (off + 4) (v / 2 ^ 32) hi else m

/-- A write by the Felt management controller: into register space word by word, else as any store (R41, R547).
DEDUCED, log entry 102. -/
def Mod.feltStore (m : Mod) (a : Nat) (bs : List Nat) : Mod :=
  match regionOf a with
  | .regs => m.each (chunksOf 4 bs.length bs).zipIdx (fun m (x, i) =>
      let o := a - regAddr 0 0 + 4 * i
      m.regWrite feltCode (o / 4096) (o % 4096) 4 (ofLe x) false false)
  | _ => (m.store .felt a bs false).1

/-- One half of a read, which may be late: its bytes, or the status of its failure (R548, R550, R567). -/
def Mod.regHalf (m : Mod) (who pg off : Nat) (late : Bool) : Mod × Cpl :=
  if late then (m.regLate who pg off 1, .ca)
  else
    match m.regRead4 who pg off with
    | (m, some v) => (m, .data (leBytes 4 v))
    | (m, none) => (m, .ur)

/-- Two halves give one completion; a failure of the lower one goes first (R548). -/
def Cpl.join : Cpl → Cpl → Cpl
  | .data a, .data b => .data (a ++ b)
  | .data _, c => c
  | c, _ => c

/-- A register read of the given size with what completes it; `lo` and `hi` are the halves that are late (R548, R549, R567). -/
def Mod.regRead (m : Mod) (who pg off size : Nat) (lo hi : Bool) : Mod × Cpl :=
  let (m, a) := m.regHalf who pg off lo
  if size = 8 then
    let (m, b) := m.regHalf who pg (off + 4) hi
    (m, a.join b)
  else (m, a)

/-- A read with its completion. -/
def Mod.regReadCpl (m : Mod) (who pg off size : Nat) (lo hi : Bool) : Mod :=
  if m.barOff who then m.complete who .ur
  else if !sizeOk off size then m.accessBad who pg off size 1
  else
    let (m, c) := m.regRead who pg off size lo hi
    m.complete who c

/-- Page and offset of an offset into BAR0, which holds 16,384 pages (R547). -/
def Mod.atReg (m : Mod) (pg off : Nat) (f : Nat → Nat → Mod) : Mod :=
  let a := pg * 4096 + off
  if a < 0x4000000 then f (a / 4096) (a % 4096) else m

/-! BAR4 -/

/-- A word of BAR4: the 2,048 entries of the MSI-X table, and from 0x8000 on a pending bit for each vector (R575). DESIGN CHOICE, log entry 45. -/
def Mod.bar4Word (m : Mod) (o : Nat) : Nat :=
  if o < 0x8000 then spRead 0 m.host.bar4 o
  else if o < 0x8100 then ((List.range 32).map (fun b => if m.host.msixPend.contains (8 * (o - 0x8000) + b) then 2 ^ b else 0)).sum
  else 0

/-- A host read of BAR4 (R575, R577, R582). -/
def Mod.bar4Read (m : Mod) (o size : Nat) : Mod :=
  if m.host.d3 || !sizeOk o size then m.complete hostCode .ur
  else m.complete hostCode (.data (((List.range (size / 4)).map (fun i => leBytes 4 (m.bar4Word (o + 4 * i)))).flatten))

/-- A host write of BAR4: the entries of the table are written, the pending bits only read (R575, R577, R582). -/
def Mod.bar4Write (m : Mod) (o size v : Nat) : Mod :=
  if m.host.d3 || !sizeOk o size || 0x8000 ≤ o then m
  else { m with host := { m.host with bar4 := spWriteAll 0 m.host.bar4 ((List.range (size / 4)).map (fun i => (o + 4 * i, v / 2 ^ (32 * i) % 2 ^ 32))) } }

/-- An access by the host at an offset that counts on from the end of BAR0: it reaches BAR4, of 64 KiB. -/
def Mod.atBar4 (m : Mod) (who pg off : Nat) (f : Nat → Mod) : Mod :=
  let a := pg * 4096 + off
  if who = hostCode && m.powered && 0x4000000 ≤ a && a < 0x4010000 then f (a - 0x4000000) else m

/-- REGISTER_WRITE: pages from 0x4000 on are the host's BAR4 -/
def execRegisterWrite (who pg off size v : Nat) (s : State) : Host.Outcome State Fault Refusal :=
  run (fun m => (m.atReg pg off (fun pg off => m.regWrite who pg off size v false false)).atBar4 who pg off (fun o => m.bar4Write o size v)) s

/-- REGISTER_READ: pages from 0x4000 on are the host's BAR4 (R32, R548, R549) -/
def execRegisterRead (who pg off size : Nat) (s : State) : Host.Outcome State Fault Refusal :=
  run (fun m => (m.atReg pg off (fun pg off => m.regReadCpl who pg off size false false)).atBar4 who pg off (fun o => m.bar4Read o size)) s

/-- REG_TIMEOUT: the page's domain has not answered for the access, or for a half of 8 bytes; a read fails with a Completer Abort and reads all ones
over MCTP, a late write is discarded (R548, R567) -/
def execRegTimeout (who pg : Nat) (x : LateAccess) (write : Option Nat) (s : State) : Host.Outcome State Fault Refusal :=
  run (fun m => m.atReg pg x.off (fun pg off =>
    match write with
    | some v => m.regWrite who pg off x.size v x.lo x.hi
    | none =>
      if who = feltCode && x.lo && x.size = 4 && off % 4 = 0 then (m.regLate who pg off 1).send (.mctp (leBytes 4 0xFFFFFFFF))
      else m.regReadCpl who pg off x.size x.lo x.hi)) s

/-! Rows of the page header -/

/-- A write of a header register of a page, through the rules of every register write. -/
def Mod.headWrite (m : Mod) (who pg off v : Nat) : Mod := m.atReg pg off (fun pg off => m.regWrite who pg off 4 v false false)

/-- PAGE_ENABLE (R556, R561) -/
def execPageEnable (who pg : Nat) (s : State) : Host.Outcome State Fault Refusal := run (fun m => m.headWrite who pg 0x008 0x10001) s

/-- PAGE_DISABLE (R556, R562) -/
def execPageDisable (who pg : Nat) (s : State) : Host.Outcome State Fault Refusal := run (fun m => m.headWrite who pg 0x008 0x10000) s

/-- PAGE_DISABLE_DONE (R562) -/
def execPageDisableDone (pg : Nat) (s : State) : Host.Outcome State Fault Refusal := run (fun m => m.pageDisableDone pg) s

/-- PAGE_COMMIT (R556, R564) -/
def execPageCommit (who pg : Nat) (s : State) : Host.Outcome State Fault Refusal := run (fun m => m.headWrite who pg 0x008 4) s

/-- PAGE_SOFT_RESET (R556, R565) -/
def execPageSoftReset (who pg : Nat) (s : State) : Host.Outcome State Fault Refusal := run (fun m => m.headWrite who pg 0x008 2) s

/-- PAGE_SNAP (R566) -/
def execPageSnap (pg : Nat) (s : State) : Host.Outcome State Fault Refusal := run (fun m => m.headWrite hostCode pg 0x018 1) s

/-- PAGE_SNAP_ALL (R566) -/
def execPageSnapAll (s : State) : Host.Outcome State Fault Refusal := run (fun m => m.headWrite hostCode pgGlobal 0x018 2) s

/-- PG_ERR_CLEAR (R557) -/
def execPgErrClear (pg v : Nat) (s : State) : Host.Outcome State Fault Refusal := run (fun m => m.headWrite hostCode pg 0x010 v) s

/-- MT_LO_READ (R542) -/
def execMtLoRead (s : State) : Host.Outcome State Fault Refusal := run (fun m => m.regReadCpl hostCode pgTime 0x100 4 false false) s

end Sys2Proof.Machine
end

