-- ==== Sys2Proof/Machine/Commands.lean ====
section
/-! DEFINITION. Commands that are a write, or a read, of one register by the host: each is that access, under every rule of the register interface. That the host sends them is a DESIGN CHOICE, log entry 46. -/
namespace Sys2Proof.Machine

/-- QUEUE_ENABLE (R285) -/
def execQueueEnable (q : Nat) (s : State) : Host.Outcome State Fault Refusal := run (fun m => m.headWrite hostCode pgDsp 0x118 (qcmdWord 1 q)) s

/-- QUEUE_DISABLE (R606) -/
def execQueueDisable (q : Nat) (s : State) : Host.Outcome State Fault Refusal := run (fun m => m.headWrite hostCode pgDsp 0x118 (qcmdWord 2 q)) s

/-- QUEUE_RESUME (R284) -/
def execQueueResume (q : Nat) (s : State) : Host.Outcome State Fault Refusal := run (fun m => m.headWrite hostCode pgDsp 0x118 (qcmdWord 3 q)) s

/-- DSP_DOORBELL (R290) -/
def execDspDoorbell (q tail : Nat) (s : State) : Host.Outcome State Fault Refusal := run (fun m => m.headWrite hostCode pgDsp 0x120 (q % 8192 * 2 ^ 19 + tail % 2 ^ 19)) s

/-- EV_CMD_SET (R310, R317) -/
def execEvCmdSet (s : State) : Host.Outcome State Fault Refusal := run (fun m => m.headWrite hostCode pgDsp 0x144 1) s

/-- EV_CMD_ADD (R310, R317) -/
def execEvCmdAdd (s : State) : Host.Outcome State Fault Refusal := run (fun m => m.headWrite hostCode pgDsp 0x144 2) s

/-- SEAL (R335) -/
def execSeal (s : State) : Host.Outcome State Fault Refusal := run (fun m => m.headWrite hostCode pgEp 0x1C0 1) s

/-- SEAL_SNAP (R348) -/
def execSealSnap (s : State) : Host.Outcome State Fault Refusal := run (fun m => m.headWrite hostCode pgEp 0x1C0 2) s

/-- RERUN (R347) -/
def execRerun (s : State) : Host.Outcome State Fault Refusal := run (fun m => m.headWrite hostCode pgEp 0x1C0 3) s

/-- SKIP (R347) -/
def execSkip (s : State) : Host.Outcome State Fault Refusal := run (fun m => m.headWrite hostCode pgEp 0x1C0 4) s

/-- RESOLVE_COMMIT (R345, R344) -/
def execResolveCommit (s : State) : Host.Outcome State Fault Refusal := run (fun m => m.headWrite hostCode pgEp 0x1C0 5) s

/-- RESOLVE_ROLLBACK (R345, R344) -/
def execResolveRollback (s : State) : Host.Outcome State Fault Refusal := run (fun m => m.headWrite hostCode pgEp 0x1C0 6) s

/-- ABORT_SNAP (R349) -/
def execAbortSnap (s : State) : Host.Outcome State Fault Refusal := run (fun m => m.headWrite hostCode pgEp 0x1C0 7) s

/-- CONTEXT_ENABLE (R408) -/
def execContextEnable (c : Nat) (s : State) : Host.Outcome State Fault Refusal := run (fun m => m.headWrite hostCode pgColl 0x118 (2 ^ 29 + c % 256)) s

/-- CONTEXT_DISABLE (R408, R438) -/
def execContextDisable (c : Nat) (s : State) : Host.Outcome State Fault Refusal := run (fun m => m.headWrite hostCode pgColl 0x118 (2 * 2 ^ 29 + c % 256)) s

/-- CONTEXT_RESUME (R408, R438) -/
def execContextResume (c : Nat) (s : State) : Host.Outcome State Fault Refusal := run (fun m => m.headWrite hostCode pgColl 0x118 (3 * 2 ^ 29 + c % 256)) s

/-- CE_DOORBELL (R410) -/
def execCeDoorbell (c tail : Nat) (s : State) : Host.Outcome State Fault Refusal := run (fun m => m.headWrite hostCode pgColl 0x120 (c % 256 * 2 ^ 24 + tail % 2 ^ 19)) s

/-- LG_SHSET (R499) -/
def execLgShset (v : Nat) (s : State) : Host.Outcome State Fault Refusal := run (fun m => m.headWrite hostCode pgLog 0x130 v) s

/-- LG_HACK_WRITE (R487) -/
def execLgHackWrite (v : Nat) (s : State) : Host.Outcome State Fault Refusal := run (fun m => m.headWrite hostCode pgLog 0x11C v) s

/-- DEP_CMD_FENCE (R458) -/
def execDepCmdFence (p sl : Nat) (s : State) : Host.Outcome State Fault Refusal := run (fun m => m.headWrite hostCode pgCal 0x108 (depWord 1 p sl)) s

/-- DEP_CMD_UNFENCE (R460) -/
def execDepCmdUnfence (p sl : Nat) (s : State) : Host.Outcome State Fault Refusal := run (fun m => m.headWrite hostCode pgCal 0x108 (depWord 2 p sl)) s

/-- DEP_CMD_TEST_NOW (R465) -/
def execDepCmdTestNow (p sl : Nat) (s : State) : Host.Outcome State Fault Refusal := run (fun m => m.headWrite hostCode pgCal 0x108 (depWord 3 p sl)) s

/-- DEP_CMD_FWD_ONLY (R462) -/
def execDepCmdFwdOnly (s : State) : Host.Outcome State Fault Refusal := run (fun m => m.headWrite hostCode pgCal 0x108 (depWord 4 0 0)) s

/-- FELT_TABLE_WRITE (R540) -/
def execFeltTableWrite (v : Nat) (s : State) : Host.Outcome State Fault Refusal := run (fun m => m.headWrite hostCode pgFelt 0x13C v) s

/-- STK_CMD_FENCE (R353) -/
def execStkCmdFence (i : Nat) (s : State) : Host.Outcome State Fault Refusal := run (fun m => if i < 32 then m.headWrite hostCode (pgStack i) 0x108 1 else m) s

/-- RT_INJECT_WRITE (R398) -/
def execRtInjectWrite (v : Nat) (s : State) : Host.Outcome State Fault Refusal := run (fun m => m.headWrite hostCode pgRouter 0x170 v) s

/-- HI_EVR_ACK (R580, R582) -/
def execHiEvrAck (v : Nat) (s : State) : Host.Outcome State Fault Refusal := run (fun m => m.headWrite hostCode pgHost 0x124 v) s

/-- EV_VAL_LO_READ (R317) -/
def execEvValLoRead (s : State) : Host.Outcome State Fault Refusal := run (fun m => m.regReadCpl hostCode pgDsp 0x134 4 false false) s

/-- RNG_KAT_RUN: a write of RNG_KAT.RUN; `wrong` lists the units that will not answer right (R266) -/
def execRngKatRun (wrong : List (Nat × W64 × W64)) (s : State) : Host.Outcome State Fault Refusal :=
  run (fun m =>
    if m.barOff hostCode then m
    else
      match m.regReach hostCode pgRng with
      | .error c => m.addrEvent .host c (regAddr pgRng 0x110)
      | .ok _ => m.katStart wrong) s

end Sys2Proof.Machine
end

