-- ==== Sys2Proof/Machine/Mctp.lean ====
section
/-! DEFINITION. The requests that reach the Felt firmware over MCTP, as it serves them in a service frame (R514, R523, R581, R584, R585). -/
namespace Sys2Proof.Machine

/-- The Felt firmware answers while P48V is in range (R584). -/
def Mod.manages (m : Mod) : Bool := m.pins.p48v && m.felt.running

/-- An answer over MCTP. -/
def Mod.answers (m : Mod) (data : List Nat) : Mod := m.send (.mctp data)

/-- The answer to a request that is refused: one byte, 1. DESIGN CHOICE of layout, log entry 50. -/
def mctpRefusal : List Nat := [1]

/-- Read register: the value, or a refusal where the register cannot be reached. -/
def Mod.mctpRead (m : Mod) (pg off : Nat) : Mod :=
  if 0x4000000 ≤ pg * 4096 + off then m.answers mctpRefusal
  else m.atReg pg off (fun pg off =>
    if !sizeOk off 4 then (m.accessBad feltCode pg off 4 1).answers mctpRefusal
    else
      match m.regRead feltCode pg off 4 false false with
      | (m, .data bs) => m.answers bs
      | (m, _) => m.answers mctpRefusal)

/-- Marks the first n records not yet read, from the oldest on, and gives them (R581). -/
def markRead : Nat → List (Event × Bool) → List Event × List (Event × Bool)
  | _, [] => ([], [])
  | n, (e, r) :: t =>
    if r || n = 0 then
      let x := markRead n t
      (x.1, (e, r) :: x.2)
    else
      let x := markRead (n - 1) t
      (e :: x.1, (e, true) :: x.2)

/-- Writes a firmware image into the copy that is not in use; refused while a write to the same copy is in progress, which `done` ends (R585). What the
ROM will find in the copy is a free value (R513). DESIGN CHOICE, log entry 33. -/
def Mod.fwWrite (m : Mod) (copyB : Bool) (image : List Nat) (done : Bool) : Mod :=
  let copy := b2n copyB
  if m.felt.running && copyB = m.felt.imageB then m.answers mctpRefusal
  else if m.felt.fwWriting = some copy then
    if done then ({ m with felt := { m.felt with fwWriting := none } } : Mod).answers [] else m.answers mctpRefusal
  else
    let (v, m) := m.fresh
    let f := { m.felt with fwWriting := if done then none else some copy }
    let f := if copyB then { f with flashB := image, auth := (f.auth.1, v.toNat % 3) } else { f with flashA := image, auth := (v.toNat % 3, f.auth.2) }
    ({ m with felt := f } : Mod).answers []

/-- A challenge, or a token bound to it and to the serial number (R514). 0 is no challenge. -/
def Mod.unlockWith (m : Mod) (token : Option UnlockToken) : Mod :=
  match token with
  | none =>
    let (v, m) := m.fresh
    ({ m with felt := { m.felt with challenge := v.toNat + 1 } } : Mod).answers (leBytes 9 (v.toNat + 1))
  | some t =>
    if t.signed && t.serial = Config.serial && t.challenge = m.felt.challenge && m.felt.challenge ≠ 0 then
      (({ m with felt := { m.felt with debugOpen := true } } : Mod).emit pgFelt Ev.debugUnlock (t.serial.toNat % 2 ^ 32) 0 0 0).answers []
    else m.answers mctpRefusal

/-- What the firmware does for a request over MCTP (R585). The sensors behind the telemetry are free values. DESIGN CHOICE, log entry 50. -/
def Mod.serveMctp (m : Mod) (r : FeltReq) : Mod :=
  match r with
  | .mgmt _ _ => m
  | .readReg pg off => m.mctpRead pg off
  | .writeReg pg off v => (m.atReg pg off (fun pg off => m.regWrite feltCode pg off 4 v false false)).answers []
  | .telemetry =>
    let (v, m) := m.fresh
    m.answers (leBytes 4 (m.pwrReg 0x104) ++ leBytes 4 (m.pwrReg 0x108) ++ leBytes 8 v.toNat)
  | .readLog n =>
    let x := markRead n m.felt.log.reverse
    ({ m with felt := { m.felt with log := x.2.reverse } } : Mod).answers ((x.1.map Event.bytes).flatten)
  | .firmware c image d => m.fwWrite c image d
  | .unlock t => m.unlockWith t
  | .census => m.answers (if m.booted then entryBytes m.ownEntry else mctpRefusal)

end Sys2Proof.Machine
end

