-- ==== Sys2Proof/Machine/Frame.lean ====
section
/-! DEFINITION. The Felt service frame (R523, R524) with the errors that it gathers (R324, R443 to R445, R448), machine time (R526 to R532), the clock throttle and the swing limiter (R534, R536), the start-up of the machine: board leader, census and tables (R537 to R540), and fence requests of stacks (R353, R461). -/
namespace Sys2Proof.Machine

/-! Errors of a frame -/

/-- An uncorrectable word: kind 1 engine store, 2 panel store, 3 instruction memory (R443). -/
def Mod.sramBad (m : Mod) (kind store off : Nat) : Mod :=
  match kind with
  | 1 => if store < 312 && off < 0x400000 then m.setPoison (esAddr store off) else m
  | 2 => if store < 6 && off < 0x3000000 then m.setPoison (psAddr store off) else m
  | 3 => if store < 312 && off < 131072 then { m with poison := insertNat (imKey store (off / 65536) (off % 65536 / 8)) m.poison } else m
  | _ => m

/-- A parity error in a register of an engine (R444). -/
def Mod.regParity (m : Mod) (k r : Nat) : Mod :=
  let m := m.emit pgCal Ev.pathParity 1 r (m.initWord (.engine k)) (slotWord k)
  (m.kernelFault k { code := Ev.pathParity, said := true }).transient k

/-- A parity error on a data path: the next delivery of that data is poisoned (R445). Which initiator's data it was is a free value. DEDUCED, log
entry 78. -/
def Mod.pathParity (m : Mod) (path a : Nat) : Mod :=
  let (v, m) := m.fresh
  let m := (m.bump pgCal 0x19C 1).emit pgCal Ev.pathParity path a (v.toNat % 2 ^ 32) 0xFFFFFFFF
  match regionOf a with
  | .mem => m.poisonOnce a
  | .es _ _ => m.poisonOnce a
  | .ps _ _ => m.poisonOnce a
  | _ => m

/-- What has gone wrong in the module's memories, registers and paths during a frame. -/
def Mod.upsets (m : Mod) (t : FrameFacts) : Mod :=
  let m := m.each t.sramUe (fun m x => m.sramBad x.1 x.2.1 x.2.2)
  let m := m.each t.dramUe (fun m a => if a < m.memTop then m.setPoison a else m)
  let m := m.each t.sramCe (fun m x =>
    let l := m.dep.sramCe
    let n := ((l.find? (fun y => y.1 = x.1 && y.2.1 = x.2.1)).map (fun y => y.2.2.1)).getD 0
    { m.bump pgCal 0x194 1 with
        dep := { m.dep with sramCe := (x.1, x.2.1, n + 1, x.2.2) :: l.filter (fun y => !(y.1 = x.1 && y.2.1 = x.2.1)) } })
  let m := m.each t.stackCe (fun m x => if x.1 < 32 && (m.stk x.1).st ≠ .fenced then m.stackCe x.1 x.2 1 else m)
  let m := m.each t.regPar (fun m x => if x.1 < 312 then m.regParity x.1 x.2 else m)
  let m := m.each t.pathPar (fun m x => m.pathParity x.1 x.2)
  m.each t.tilePar (fun m x =>
    match (m.eng x.1).getTile x.2.1 with
    | some tile => m.suspectEvent x.1 x.2.1 tile x.2.2
    | none => m)

/-- Order 4: one SRAM_CE record per store and one MEM_CE record per stack with corrected errors in the frame (R324, R443). -/
def Mod.ceRecords (m : Mod) : Mod :=
  let m := m.each m.dep.sramCe (fun m x =>
    m.emit pgCal Ev.sramCe x.1 x.2.2.1 x.2.2.2 (if x.1 = 2 then 0xFFFFFFFF else slotWord x.2.1))
  m.each (List.range 32) (fun m i =>
    let k := m.stk i
    if k.frameCe = 0 then m else m.emit (pgStack i) Ev.memCe i k.frameCe k.lastCe (m.reg (pgStack i) 0x180))

/-- The counts of a frame end with it; a stack keeps those of the last 1,000 frames (R324). -/
def Mod.frameCounts (m : Mod) : Mod :=
  let f := m.felt.frame
  { m with dep := { m.dep with sramCe := [] },
           stks := m.stks.map (fun (k : Stack) =>
             if k.frameCe = 0 then k
             else { k with frames := (f, k.frameCe) :: k.frames.filter (fun x => decide (f < x.1 + 1000)), frameCe := 0 }) }

/-! Board leader and census (R538, R539) -/

/-- Enters entries in place of older ones of the same modules. -/
def Mod.enterAll (m : Mod) (es : List CensusEntry) : Mod :=
  { m with felt := { m.felt with entries := es ++ m.felt.entries.filter (fun e => !es.any (fun x => x.modid = e.modid)) } }

/-- Writes entries at FELT_CENSUS_BASE on module (0, 0, 0, 0); another leader of board (0, 0, 0) hands them to it (R539 step 5). -/
def Mod.censusWrite (m : Mod) (es : List CensusEntry) : Mod :=
  if m.modid = 0 then m.each es (fun m e => m.feltStore (m.reg64 pgFelt 0x130 0x134 + 32 * e.modid) (entryBytes e))
  else m.reportTo 0 true es

/-- Passes entries upward, as the board's report or as an update after it: to all eight modules of the parent board, or into memory on board (0, 0, 0)
(R539). -/
def Mod.censusUp (m : Mod) (update : Bool) (es : List CensusEntry) : Mod :=
  let own := boardOf m.modid
  if own = 0 then m.censusWrite es
  else m.each (List.range 8) (fun m w => m.reportTo (8 * parentBoard own + w) update es)

/-- The absent modules of a board. DESIGN CHOICE, log entry 80. -/
def absentEntries (b : Nat) : List CensusEntry :=
  (List.range 8).map (fun w => { modid := 8 * b + w, state := 0, stackCount := 0, active := 0, misplaced := 0, down := 0, serial := 0#64, bootMs := 0 })

/-- The leader sends its entries and its children's; a module of its board that it has not heard is entered as absent (R514), and on board (0, 0, 0) the
census is done (R539). -/
def Mod.censusSend (m : Mod) : Mod :=
  let m := m.enterAll ((absentEntries (boardOf m.modid)).filter (fun e => !m.felt.entries.any (fun x => x.modid = e.modid)))
  let es := m.felt.entries
  let m := { m.censusUp false es with felt := { (m.censusUp false es).felt with censusSent := true } }
  if boardOf m.modid = 0 then
    let n := fun (st : Nat) => (es.filter (fun e => e.state = st)).length
    m.emit pgFelt Ev.censusDone (n 1) (n 2) (n 3) (n 0)
  else m

/-- Sends when every child board has reported (R539 step 2). -/
def Mod.censusTry (m : Mod) : Mod :=
  if m.leads && !m.felt.censusSent && m.childBoards.all (fun b => m.felt.reports.contains b) then m.censusSend else m

/-- The module takes part in the start-up of the machine: BOOTED and beyond, or HALTED with its router running (R514, R538). -/
def Mod.joined (m : Mod) : Bool := m.felt.running && m.felt.announced.isSome

/-- A peer of the board has been heard; one that comes after the choice learns from the leader whom to follow and is a census update (R538), and one that
comes after the tables gets them from its leader (R540). How a late module learns of the leader is a DESIGN CHOICE, log entry 80. -/
def Mod.hearPeer (m : Mod) (w : Nat) (e : CensusEntry) : Mod :=
  if !m.felt.running || 8 ≤ w || m.rt.inReset then m
  else
    let m := { m with felt := { m.felt with heard := addOnce w m.felt.heard, announced := some (m.felt.announced.getD m.time) } }.enterAll [e]
    let m := if m.leads then m.mgmtTo (8 * boardOf m.modid + w) (entryBytes m.ownEntry ++ leBytes 8 m.here.w) else m
    let m := if m.leads && m.felt.censusSent then m.censusUp true [e] else m
    if m.leads && !m.felt.table.isEmpty then m.mgmtTo (8 * boardOf m.modid + w) (m.felt.table ++ leBytes 8 (m.felt.tAct.getD m.time)) else m

/-- The leader of the board, which has been chosen before this module announced itself, says so: the module follows it (R538). -/
def Mod.hearLeader (m : Mod) (w : Nat) (e : CensusEntry) : Mod :=
  if !m.felt.running || 8 ≤ w || m.rt.inReset then m
  else
    ({ m with felt := { m.felt with heard := addOnce w m.felt.heard, announced := some (m.felt.announced.getD m.time),
                                    leader := some (m.felt.leader.getD w),
                                    choiceAt := if m.felt.leader.isNone then m.time else m.felt.choiceAt } } : Mod).enterAll [e]

/-- MGMT_ANNOUNCEMENT -/
def execMgmtAnnouncement (w : Nat) (e : CensusEntry) (s : State) : Host.Outcome State Fault Refusal := run (fun m => m.hearPeer w e) s

/-- BOARD_LEADER_CHOICE: the lowest w heard leads (R538) -/
def execBoardLeaderChoice (s : State) : Host.Outcome State Fault Refusal :=
  run (fun m =>
    if !m.joined || m.felt.leader.isSome || !m.felt.heard.contains m.here.w then m
    else
      let w := m.felt.heard.foldl min 8
      let m := { m with felt := { m.felt with leader := some w, choiceAt := m.time } }
      if w = m.here.w then (m.emit pgFelt Ev.leader w m.felt.heard.length 0 0).censusTry else m) s

/-- Only the board's leader acts on entries from a child board: they replace older ones. A whole report counts for the wait; after the leader's own
report entries go upward as an update. Module (0, 0, 0, 0) writes what another leader of its board hands to it (R539). -/
def Mod.takeEntries (m : Mod) (board : Nat) (whole : Bool) (es : List CensusEntry) : Mod :=
  if m.joined && m.modid = 0 && board = 0 && !m.leads then m.censusWrite es
  else if !m.joined || !m.leads || !m.childBoards.contains board then m
  else
    let m := m.enterAll es
    let m := if whole then { m with felt := { m.felt with reports := addOnce board m.felt.reports } } else m
    if m.felt.censusSent then m.censusUp true es else m.censusTry

/-- Part i of the n parts of a report has come; the board has reported with the last of them. -/
def Mod.takePart (m : Mod) (board i n : Nat) (es : List CensusEntry) : Mod :=
  let parts := (board, i) :: m.felt.parts.filter (· ≠ (board, i))
  let m := { m with felt := { m.felt with parts } }
  m.takeEntries board (0 < n && (List.range n).all (fun j => parts.contains (board, j))) es

/-- CENSUS_REPORT -/
def execCensusReport (board : Nat) (es : List CensusEntry) (s : State) : Host.Outcome State Fault Refusal := run (fun m => m.takeEntries board true es) s

/-- CENSUS_WAIT_EXPIRY: missing child boards are entered as absent, each with CENSUS_LATE, and the report goes out (R539 step 4) -/
def execCensusWaitExpiry (s : State) : Host.Outcome State Fault Refusal :=
  run (fun m =>
    if !m.joined || !m.leads || m.felt.censusSent then m
    else
      let late := m.childBoards.filter (fun b => !m.felt.reports.contains b)
      let m := m.each late (fun m b => (m.enterAll (absentEntries b)).emit pgFelt Ev.censusLate (8 * b) (boardDepth b) 0 0)
      ({ m with felt := { m.felt with absent := late } } : Mod).censusSend) s

/-! Tables (R540) -/

/-- The block is kept until T_ACT and passed on (R540). -/
def Mod.takeBlock (m : Mod) (block : List Nat) (tAct : Nat) : Mod :=
  if !m.booted || m.felt.tAct = some tAct then m
  else ({ m with felt := { m.felt with table := block, tAct := some tAct } } : Mod).tableDown

/-- TABLE_BLOCK_MESSAGE -/
def execTableBlockMessage (block : List Byte) (tAct : Nat) (s : State) : Host.Outcome State Fault Refusal :=
  run (fun m => m.takeBlock (block.map (·.toNat)) tAct) s

/-- The registers of the table block with their bytes (R540). -/
def tableRegs : List (Nat × Nat) := [(0x10C, 0), (0x150, 4), (0x154, 8), (0x158, 12), (0x15C, 16), (0x160, 20), (0x164, 24), (0x168, 28)]

/-- TABLES_ACTIVE: at T_ACT the router page is written and enabled again, and STAGE becomes READY (R540) -/
def execTablesActive (s : State) : Host.Outcome State Fault Refusal :=
  run (fun m =>
    match m.felt.tAct with
    | none => m
    | some t =>
      if !m.booted || m.time < t then m
      else
        let m := m.setPage pgRouter { m.page pgRouter with enabled := false, busy := false }
        let m := { m with rt := { m.rt with dropSaid := false } }
        let m := m.each tableRegs (fun m x =>
          match regRow .router x.1 with
          | some r => m.setReg pgRouter x.1 (Nat.land (ofLe ((m.felt.table.drop x.2).take 4)) r.mask)
          | none => m)
        let m := m.enable pgRouter
        ({ m with felt := { m.felt with stage := .ready, tAct := none } } : Mod).emit pgFelt Ev.tablesActive (t % 2 ^ 32) (t / 2 ^ 32) 0 0) s

/-! Requests (R523, R524) -/

/-- The entry that 32 bytes hold (R539). -/
def entryOf (bs : List Nat) : CensusEntry :=
  { modid := field bs 0 2, state := field bs 2 1, stackCount := field bs 3 1, active := field bs 4 2, misplaced := field bs 8 4, down := field bs 12 4,
    serial := BitVec.ofNat 64 (field bs 16 8), bootMs := field bs 24 4 }

/-- A MGMT message is served: a table block with T_ACT, a peer's announcement, a leader's notice, or entries of a census (R538 to R540). DESIGN CHOICE of
layout, log entry 29. -/
def Mod.serveMgmt (m : Mod) (src : Nat) (bs : List Nat) : Mod :=
  let own := boardOf src = boardOf m.modid
  if bs.length = 72 then m.takeBlock (bs.take 64) (field bs 64 8)
  else if bs.length = 32 then (if own && (entryOf bs).modid = src then m.hearPeer (src % 8) (entryOf bs) else m)
  else if bs.length = 40 then (if own && field bs 32 8 = src % 8 then m.hearLeader (src % 8) (entryOf bs) else m)
  else if bs.length % 32 ≠ 4 then m
  else m.takePart (boardOf src) (field bs 0 2) (field bs 2 2) ((List.range (bs.length / 32)).map (fun i => entryOf (bs.drop (4 + 32 * i))))

/-- A request is served (R523). -/
def Mod.serveRequest (m : Mod) (r : FeltReq) : Mod :=
  match r with
  | .mgmt src bs => m.serveMgmt src bs
  | _ => m.serveMctp r

/-- The firmware sends again the MGMT messages that it takes for lost; which they are is a free value, since no MGMT message is acknowledged (R368,
R398). DESIGN CHOICE, log entry 98. -/
def Mod.sendAgain (m : Mod) : Mod :=
  if m.felt.again.isEmpty then m
  else
    let (v, m) := m.fresh
    let lost := (m.felt.again.zipIdx.filter (fun x => v.getLsbD (x.2 % 64))).map (·.1)
    ({ m with felt := { m.felt with again := [] } } : Mod).each lost (fun m x => m.mgmtTo x.1 x.2)

/-- Serves n requests of the queue, the oldest first. -/
def Mod.serveNext : Nat → Mod → Mod
  | 0, m => m
  | n + 1, m =>
    match m.felt.requests with
    | [] => m
    | r :: t => Mod.serveNext n (({ m with felt := { m.felt with requests := t } } : Mod).serveRequest r)

/-- Passes upward what the module owes to the census (R538). -/
def Mod.sendUpdates (m : Mod) : Mod :=
  match m.felt.updates with
  | [] => m
  | es => ({ m with felt := { m.felt with updates := [] } } : Mod).censusUp true es

/-- Order 6 of a frame: the queued requests in arrival order, and the messages of the start-up (R523). -/
def Mod.serveAll (m : Mod) : Mod := (Mod.serveNext m.felt.requests.length m).sendUpdates.sendAgain

/-! The service frame -/

/-- Normal operation (R511). -/
def Mod.normal (m : Mod) : Bool := m.booted && !m.fwdOnly && m.pwr.st = .on && m.pins.modResetN

/-- The counters of power and heat: a millisecond under each condition (R534, R536). -/
def Mod.powerMs (m : Mod) : Mod :=
  let m := if m.pwr.throttle then m.bump pgPwr 0x180 1 else m
  let m := if m.pwr.cap then m.bump pgPwr 0x184 1 else m
  if m.pwr.load then m.bump pgPwr 0x188 1 else m

/-- Work of an order is done in a frame unless it or an earlier one is the first that was dropped (R524). -/
def done (t : FrameFacts) (o : Nat) : Bool :=
  match t.late with
  | some d => decide (o < d)
  | none => true

/-- FELT_FRAME_LATE, at most once in 1,000 frames (R524). -/
def Mod.frameLate (m : Mod) (o : Nat) : Mod :=
  let m := m.bump pgFelt 0x184 1
  let f := m.felt.frame
  match m.felt.lateAt with
  | some g => if f < g + 1000 then m else { m with felt := { m.felt with lateAt := some f } }.emit pgFelt Ev.feltFrameLate (m.reg pgFelt 0x184) o 0 0
  | none => { m with felt := { m.felt with lateAt := some f } }.emit pgFelt Ev.feltFrameLate (m.reg pgFelt 0x184) o 0 0

/-- The periodic work of orders 1 to 5, and what the hardware counts in a frame (R511, R523). -/
def Mod.frameWork (t : FrameFacts) (m : Mod) : Mod :=
  let m := { m with felt := { m.felt with frame := m.felt.frame + 1 } }.bump pgFelt 0x180 1
  let m := if m.powered then (m.upsets t).powerMs else m
  let m := if done t 1 then m.steer t.off else m
  let m := if done t 2 then { m with pwr := { m.pwr with watts := t.watts % 65536, vin := t.vin % 65536, tj := t.tj % 256, sensor := t.sensor % 256 } } else m
  let m := if done t 3 && m.felt.frame % (if m.normal then 2 else 4) = 0 then { m with pins := { m.pins with aliveOut := !m.pins.aliveOut } } else m
  let m := (if done t 4 then m.ceRecords else m).frameCounts
  if done t 5 then m.classTimers.calSchedule else m

/-- FELT_SERVICE_FRAME: the periodic work in its order (R511, R523, R524) -/
def execFeltServiceFrame (t : FrameFacts) (s : State) : Host.Outcome State Fault Refusal :=
  run (fun m =>
    if !m.felt.running then m
    else
      let m := m.frameWork t
      let m := if done t 6 then m.serveAll else m
      match t.late with
      | some o => m.frameLate o
      | none => m) s

/-! Clock throttle and swing limiter -/

/-- CLOCK_THROTTLE_STEP: one step of 1/16 down while the draw exceeds PWR_CAP or the hottest junction reaches PWR_THROTTLE, one up for each fifth check
of 10 µs with both clear (R534). The lowest step kept is 1/16 (log entry 32). DEDUCED, log entry 81. -/
def execClockThrottleStep (watts tj sensor : Nat) (s : State) : Host.Outcome State Fault Refusal :=
  run (fun m =>
    if !m.powered then m
    else
      let above := decide (m.pwr.capW < watts)
      let hot := decide (m.fld pgPwr 0x11C 0 8 ≤ tj)
      if above || hot then
        let p := m.pwr
        let m := { m with pwr := { p with clk := max 1 (p.clk - 1), clears := 0, cap := p.cap || above, throttle := p.throttle || hot } }
        let m := if above && !p.cap then m.emit pgPwr Ev.pwrCapActive watts p.capW 0 0 else m
        if hot && !p.throttle then m.emit pgPwr Ev.thermThrottle tj sensor (m.fld pgPwr 0x11C 0 8) 0 else m
      else
        let up := decide (m.pwr.clears + 1 = 5)
        let clk := if up then min 16 (m.pwr.clk + 1) else m.pwr.clk
        let below := decide (clk < 16)
        { m with pwr := { m.pwr with clk, clears := if up then 0 else m.pwr.clears + 1, cap := m.pwr.cap && below, throttle := m.pwr.throttle && below } }) s

/-- A sleeping engine is woken through dispatch, the next after those that are awake (R304, R536). -/
def Mod.wakeMore (m : Mod) : Mod :=
  match (List.range 312).find? (fun k => (m.eng k).st = .sleep && (m.slot k).st = .active) with
  | some k => if m.on pgDsp then m.wake k else m
  | none => m

/-- LIMITER_ADJUST: H follows the 10 µs average draw without the limiter's load; below L awake engines without a kernel carry load, and where they do not
suffice the next sleeping one is woken (R536). Which engines are taken, and whether they suffice, a free value, is the model's choice (log entry 32). -/
def execLimiterAdjust (watts : Nat) (s : State) : Host.Outcome State Fault Refusal :=
  run (fun m =>
    if m.pwr.st ≠ .on then m
    else
      let p := watts * 1000000
      let h := max p (m.pwr.level - m.pwr.decayW * (m.time - m.pwr.loadNs))
      let l := max (m.pwr.floorW * 1000000) h
      let m := { m with pwr := { m.pwr with level := h, loadNs := m.time, added := l - p } }
      if p < l && l ≤ m.pwr.capW * 1000000 then
        let idle := (List.range 312).filter (fun k => (m.eng k).st = .idle && (m.eng k).task.isNone)
        let m := { m with pwr := { m.pwr with load := !idle.isEmpty, loaded := idle } }
        let (v, m) := m.fresh
        if idle.isEmpty || v.toNat % 2 = 0 then m.wakeMore else m
      else { m with pwr := { m.pwr with load := false, loaded := [] } }) s

end Sys2Proof.Machine
end

