-- ==== Sys2Proof/Machine/HostCmds.lean ====
section
/-! DEFINITION. The host port: BAR2 (R575, R576), the function's reset and power states (R576, R577), Bus Master Enable (R578), the link (R574, R599), and the management requests over MCTP (R514, R584, R585). -/
namespace Sys2Proof.Machine

/-! BAR2 -/

/-- BAR2 accesses are served (R577, R582). -/
def Mod.bar2On (m : Mod) : Bool := m.on pgHost && !m.host.d3

/-- The local address of a BAR2 offset (R575). -/
def Mod.bar2Addr (m : Mod) (off : Nat) : Nat := m.fld pgHost 0x108 0 12 * 0x40000000 + off

/-- The bytes of the window (R575). -/
def Mod.bar2Size (m : Mod) : Nat := m.host.bar2 * 0x40000000

/-- BAR2_READ: data, a completion marked poisoned, or Unsupported Request (R40, R575, R576) -/
def execBar2Read (off len : Nat) (s : State) : Host.Outcome State Fault Refusal :=
  run (fun m =>
    if !m.powered || m.bar2Size < off + len then m
    else if !m.bar2On then m.complete hostCode .ur
    else
      match m.load .host (m.bar2Addr off) len with
      | (m, .ok bs) => m.complete hostCode (.data bs)
      | (m, .refused _ _) => m.complete hostCode .ur
      | (m, .poisoned a) =>
        ((m.bump pgHost 0x184 1).emit pgHost Ev.hostPoisonSent (a % 2 ^ 32) (a / 2 ^ 32) 0 0).complete hostCode .poisoned) s

/-- BAR2_WRITE: posted, through the filter of R331 (R575) -/
def execBar2Write (off : Nat) (data : List Byte) (s : State) : Host.Outcome State Fault Refusal :=
  run (fun m =>
    if !m.powered || m.bar2Size < off + data.length || !m.bar2On then m
    else (m.store .host (m.bar2Addr off) (data.map (·.toNat)) false).1) s

/-! Resets and power states of the function -/

/-- The host interface runs: its island is powered and in no reset (R510, R518, R521). -/
def Mod.hostRuns (m : Mod) : Bool := m.powered && m.pins.perstN && m.pins.modResetN

/-- A reset of the host interface with the link left up (R576); it clears Bus Master Enable, and work that then waits is reported (R578). -/
def Mod.linkedReset (m : Mod) (d3 : Bool) : Mod :=
  let h := m.host
  let work := m.heldWork
  let m := m.hostReset
  (({ m with host := { m.host with rate := h.rate, width := h.width, flit := h.flit, d3 } } : Mod).resetEntry 6 2 false).saidHeld work

/-- FUNCTION_LEVEL_RESET (R576) -/
def execFunctionLevelReset (s : State) : Host.Outcome State Fault Refusal := run (fun m => if m.hostRuns then m.linkedReset false else m) s

/-- Requests to host memory stop: HOST_OUTBOUND_HELD where there is work, and an active snapshot ends (R492, R578). -/
def Mod.holdOut (m : Mod) (work : Nat) : Mod :=
  let m := m.saidHeld work
  if m.sd.active then m.snapHostError 3 else m

/-- D3HOT_ENTRY: the host interface is reset with the link up, and outbound writes are held (R576, R577). DEDUCED, log entry 52. -/
def execD3hotEntry (s : State) : Host.Outcome State Fault Refusal :=
  run (fun m =>
    if !m.hostRuns || m.host.d3 then m else m.linkedReset true) s

/-- What has waited goes out: MSI-X messages, event records, the mirror, and the seals that waited for it (R487, R578, R580, R582). -/
def Mod.resumeOut (m : Mod) : Mod :=
  if !m.outbound then m
  else
    let pend := m.host.msixPend
    let m := if m.on pgHost then ((({ m with host := { m.host with msixPend := [] } } : Mod).each pend Mod.msix).evrFlush) else m
    m.mirrorFlush.delayedSeals

/-- D3HOT_EXIT (R577) -/
def execD3hotExit (s : State) : Host.Outcome State Fault Refusal :=
  run (fun m => if m.hostRuns && m.host.d3 then ({ m with host := { m.host with d3 := false } } : Mod).resumeOut else m) s

/-- BUS_MASTER_DISABLE (R578) -/
def execBusMasterDisable (s : State) : Host.Outcome State Fault Refusal :=
  run (fun m =>
    if !m.host.bme then m
    else
      let m := { m with host := { m.host with bme := false } }
      m.holdOut m.outWork) s

/-- BUS_MASTER_ENABLE (R578) -/
def execBusMasterEnable (s : State) : Host.Outcome State Fault Refusal :=
  run (fun m => if m.hostRuns && !m.host.bme then ({ m with host := { m.host with bme := true } } : Mod).resumeOut else m) s

/-! The link -/

/-- HOST_LINK_UP: the trained rate and width, of those that the interface supports; below 64 GT/s or x16 the link is degraded (R573, R574, R599) -/
def execHostLinkUp (rate width : Nat) (flit : Bool) (s : State) : Host.Outcome State Fault Refusal :=
  run (fun m =>
    if !m.hostRuns || rate = 0 || 6 < rate || !([1, 2, 4, 8, 16].contains width) then m
    else
      let r := rate
      let w := width
      let m := { m with host := { m.host with rate := r, width := w, flit } }
      let m := m.emit pgHost Ev.hostLinkUp r w (b2n flit) 0
      if r < 6 || w < 16 then m.emit pgHost Ev.hostLinkDegraded r w 0 0 else m) s

/-- HOST_LINK_DOWN: the link has left L0 other than by PERST#; an active snapshot ends (R492, R599) -/
def execHostLinkDown (s : State) : Host.Outcome State Fault Refusal :=
  run (fun m =>
    if m.host.rate = 0 then m
    else
      let h := m.host
      let m := { m with host := { h with rate := 0, width := 0, flit := false } }
      let m := m.emit pgHost Ev.hostLinkDown h.rate h.width 0 0
      if m.sd.active then m.snapHostError 3 else m) s

/-- The AER status of a completion that ends a request of the module in error: Completion Timeout, Completer Abort or Unsupported Request. PRESUMED,
log entry 90. -/
def badCompletion (status : Nat) : Bool := bitAt status 14 || bitAt status 15 || bitAt status 20

/-- HOST_AER_UNCORR: an error completion ends an active snapshot (R492, R599) -/
def execHostAerUncorr (status hdr : Nat) (s : State) : Host.Outcome State Fault Refusal :=
  run (fun m =>
    if !m.hostRuns then m
    else
      let m := m.emit pgHost Ev.hostAerUncorr status hdr 0 0
      if m.sd.active && badCompletion status then m.snapHostError 4 else m) s

/-! Management requests (R584, R585) -/

/-- A request over MCTP joins the queue of the Felt firmware, which runs while P48V is in range (R523, R524, R584). -/
def Mod.mctp (m : Mod) (r : FeltReq) : Mod := if m.manages then m.enqueue r else m

/-- MCTP_READ_REGISTER -/
def execMctpReadRegister (pg off : Nat) (s : State) : Host.Outcome State Fault Refusal := run (fun m => m.mctp (.readReg pg off)) s

/-- MCTP_WRITE_REGISTER -/
def execMctpWriteRegister (pg off v : Nat) (s : State) : Host.Outcome State Fault Refusal := run (fun m => m.mctp (.writeReg pg off v)) s

/-- MCTP_READ_TELEMETRY -/
def execMctpReadTelemetry (s : State) : Host.Outcome State Fault Refusal := run (fun m => m.mctp .telemetry) s

/-- MCTP_READ_FELT_LOG -/
def execMctpReadFeltLog (count : Nat) (s : State) : Host.Outcome State Fault Refusal := run (fun m => m.mctp (.readLog count)) s

/-- SMB_ALERT_N: low while the log holds an unread record of SEV ERROR or FATAL (R581). -/
def Mod.smbAlertN (m : Mod) : Bool := !m.felt.log.any (fun e => decide (2 ≤ e.1.sev) && !e.2)

/-- MCTP_WRITE_FIRMWARE: to the firmware, or to the ROM in recovery, which takes an image at once (R513) -/
def execMctpWriteFirmware (copyB : Bool) (image : List Byte) (done : Bool) (s : State) : Host.Outcome State Fault Refusal :=
  run (fun m =>
    if m.pins.p48v && !m.felt.running then m.fwWrite copyB (image.map (·.toNat)) done
    else m.mctp (.firmware copyB (image.map (·.toNat)) done)) s

/-- MCTP_DEBUG_UNLOCK -/
def execMctpDebugUnlock (token : Option UnlockToken) (s : State) : Host.Outcome State Fault Refusal := run (fun m => m.mctp (.unlock token)) s

/-- The IDCODE of the JTAG port; no row of the table reaches the port itself (R586). -/
def jtagIdcode : Nat := 0x1A8F30E5

/-- The instructions of the JTAG port other than IDCODE and the boundary scan are open (R514, R586). -/
def Mod.jtagOpen (m : Mod) : Bool := m.felt.debugOpen

/-- MCTP_READ_CENSUS -/
def execMctpReadCensus (s : State) : Host.Outcome State Fault Refusal := run (fun m => m.mctp .census) s

end Sys2Proof.Machine
end

