-- ==== Sys2Proof/Machine/Matrix.lean ====
section
/-! DEFINITION. The matrix instructions and the completions of the array and the drain unit (R173 to R191, R213 to R220), and the panel reduction tree (R110 to R113, R433 to R435, R600). -/
namespace Sys2Proof.Machine

/-! Banks and passes -/

/-- A format that may be an array operand (R70). -/
def Fmt.operand (f : Fmt) : Bool := f = .zf16 || f = .zf8 || f = .zg8 || f = .zl4 || f.isInt

/-- The accesses of a stored block of `rows` rows of `width` elements with its scale bytes (R131, R206, R213, R215, R602). -/
def blockAccs (b : Block) (rows width : Nat) : List Acc :=
  (List.range rows).map (fun r => { off := b.off + r * b.stride * 64, n := b.fmt.bytes width, align := 64 })
  ++ (match blockSize b.smode with
      | some z => (List.range rows).map (fun r => { off := scaleWordOff b.scale + r * scaleWordBpr b.scale, n := ceilDiv width z, align := 1 })
      | none => if b.smode = 1 then [{ off := scaleWordOff b.scale, n := 1, align := 64 }] else [])

/-- The block that an MLOAD or an MMA names, or its refusal: the format, then the scale mode (R130, R215). -/
def Iss.block (x : Iss) (col : Bool) (code : Nat) (a s : BitVec 6) (stride smode : Nat) (bad : KFault) : Except KFault Block :=
  match Fmt.ofCode code with
  | none => .error bad
  | some t =>
    if !t.operand then .error bad
    else if smode = 7 then .error (smodeBad 7 code x.e.ctx.opid)
    else .ok ⟨col, t, (x.s a).toNat, stride, smode, x.s s⟩

/-- MLOAD. DEDUCED, log entry 36; a refused format stands in both halves of the event's format word: DESIGN CHOICE, log entry 88. -/
def execMload (n : Nat) (f : MloadFmt) (s : State) : Host.Outcome State Fault Refusal :=
  run (fun m => m.issue n (.mload f) (fun m x =>
    if f.rsv ≠ 0#23 || !RKind.s.ok f.a || !RKind.s.ok f.s || f.stride = 0#12 then .fault m x.illegal
    else
      match x.block (f.ori = 1#1) f.fmt.toNat f.a f.s f.stride.toNat f.smode.toNat (fmtBad f.fmt.toNat f.fmt.toNat false 0 x.e.ctx.opid) with
      | .error k => .fault m k
      | .ok b =>
        let d := bankDepth b.fmt
        m.using x (if b.col then blockAccs b 128 d else blockAccs b d 128)
          (.next (m.upd x (fun e => { e with jobs := e.jobs ++ [.mload ⟨f.bank.toNat, loadBank (m.es x.k) b⟩] }))))) s

/-- An MMA in flight reads a bank ahead of a load of it (R195). -/
def bankHeld (js : List Job) (bank : Nat) : Bool :=
  (js.takeWhile (fun j => match j with | .mload x => x.bank ≠ bank | _ => true)).any (fun j => match j with | .mma x => x.bank = bank | _ => false)

/-- MLOAD_COMPLETE: the first load of the bank; an earlier MMA that still reads the bank goes first (R195) -/
def execMloadComplete (n bank : Nat) (s : State) : Host.Outcome State Fault Refusal :=
  run (fun m =>
    match m.slotOf n with
    | none => m
    | some k =>
      match mloadOf (m.eng k).jobs bank with
      | some j => if bankHeld (m.eng k).jobs bank then m else m.doneMload k j
      | none => m) s

/-- An MMA on a tile is in flight (R195). -/
def Engine.mmaOn (e : Engine) (t : Nat) : Bool := e.jobs.any (fun j => match j with | .mma x => x.tile = t | _ => false)

/-- MMA on an open tile whose block and bank are there: pairing, tile mode, integer rules, chunk limit, draws, then the pass (R141, R144, R160, R173,
R176, R178, R181). DEDUCED, log entry 67; the format word of ACC_MODE_MISMATCH: DESIGN CHOICE, log entry 88. -/
def mmaRes (m : Mod) (x : Iss) (f : MmaFmt) (b : Block) (t : Tile) : Res :=
  let tno := f.t.toNat
  let bank := x.e.sb.getD f.bank.toNat {}
  let bad := fmtBad ((bank.fmt.map Fmt.code).getD 0xF) f.fmt.toNat false 0 x.e.ctx.opid
  match bank.fmt with
  | none => .fault m bad
  | some bf =>
    match pairing bf b.fmt with
    | none => .fault m bad
    | some (_, int) =>
      let depth := bankDepth bf
      let chunks := chunksPerRow bf
      let rows := f.mm1.toNat + 1
      if int ≠ t.int then .fault m { code := Ev.accModeMismatch, d0 := tno, d1 := bf.code * 16 + b.fmt.code, d2 := t.opid }
      else if int && (bank.smode ≠ 0 || b.smode ≠ 0) then
        .fault m (smodeBad (if bank.smode ≠ 0 then bank.smode else b.smode) b.fmt.code x.e.ctx.opid)
      else if int && f.rlog.toNat % 2 = 1 then .fault m (smodeBad 0 b.fmt.code x.e.ctx.opid)
      else if t.nchunk + chunks > 2 ^ t.leafLog * t.g then
        .fault m { code := Ev.accChunkOverrun, d0 := tno, d1 := t.nchunk, d2 := t.opid }
      else
        m.using x (if b.col then blockAccs b depth rows else blockAccs b rows depth)
          (orElse m [if !t.int && t.rmode = .sr then m.rngRefuse x else none]
            (.next (m.upd x (fun e =>
              { e.setTile tno (some { t with nchunk := t.nchunk + chunks }) with
                jobs := e.jobs ++ [.mma ⟨tno, f.bank.toNat, f.rlog.toNat, t.nchunk, streamRows (m.es x.k) b depth rows⟩] }))))

/-- MMA -/
def execMma (n : Nat) (f : MmaFmt) (s : State) : Host.Outcome State Fault Refusal :=
  run (fun m => m.issue n (.mma f) (fun m x =>
    let rlog := f.rlog.toNat
    if f.rsv ≠ 0#9 || !RKind.s.ok f.a || !RKind.s.ok f.s || f.stride = 0#12 || (rlog ≠ 0 && (rlog < 5 || rlog > 8)) then .fault m x.illegal
    else if (mloadOf x.e.jobs f.bank.toNat).isSome then .hold
    else
      let bank := x.e.sb.getD f.bank.toNat {}
      let bad := fmtBad ((bank.fmt.map Fmt.code).getD 0xF) f.fmt.toNat false 0 x.e.ctx.opid
      match x.block (f.ori = 1#1) f.fmt.toNat f.a f.s f.stride.toNat f.smode.toNat bad with
      | .error k => .fault m k
      | .ok b =>
        match x.e.getTile f.t.toNat with
        | none => .fault m { code := Ev.accNotOpen, d0 := f.t.toNat, d1 := x.e.pc, d2 := x.e.ctx.opid }
        | some t => mmaRes m x f b t)) s

/-- MMA_PASS_COMPLETE: passes leave the array in program order (R180, R195) -/
def execMmaPassComplete (n : Nat) (s : State) : Host.Outcome State Fault Refusal :=
  run (fun m =>
    match m.slotOf n with
    | none => m
    | some k =>
      match firstMma (m.eng k).jobs with
      | some j => m.doneMma k j
      | none => m) s

/-! Opening a tile -/

/-- The rounding mode of a running sum: RNE or SR in float mode; integer mode ignores the field (R179, R216). -/
def accMode (int : Bool) (code : Nat) : Option RMode :=
  if int then some .rne
  else match RMode.ofCode code with
    | some .rne => some .rne
    | some .sr => some .sr
    | _ => none

/-- MZERO and MPRE once their fields are legal: the limits of R179 and R217, the range of SR draws, and the new reduction. -/
def openTile (m : Mod) (x : Iss) (f : MopenFmt) (pre : Option Preload) : Res :=
  let tno := f.t.toNat
  let a := (x.s f.a).toNat
  let b := (x.e.getS (f.a.toNat + 1)).toNat
  let int := f.mode = 1#1
  let leaf := f.leafLog.toNat
  let tree := f.treeLog.toNat
  let cb := bitsOf b 32 22
  let depth : KFault := { code := Ev.accTreeDepth, d0 := tno, d1 := leaf + f.seglen.toNat * 256 + f.rmode.toNat * 4096, d2 := cb }
  let span := cb + 2 ^ leaf * 2 ^ f.seglen.toNat
  match accMode int f.rmode.toNat with
  | none => .fault m depth
  | some rm =>
    if leaf > 3 || f.seglen.toNat > 6 || tree > 16 || leaf > tree || span > 2 ^ 22 then .fault m depth
    else
      let t : Tile := { int, seglen := f.seglen.toNat, rmode := rm, leafLog := leaf, treeLog := tree, chunkBase := cb, opid := x.e.ctx.opid,
                        step := x.e.ctx.step, ebase := a, erow := bitsOf b 0 32, pre }
      if rm = .sr && (t.elemIndex 127 127 ≥ 2 ^ 44 || span ≥ 2 ^ 22 - 1) then .fault m (srRange (t.elemIndex 127 127) span x.e.ctx.opid)
      else .next (m.upd x (fun e => e.setTile tno (some t)))

/-- The operands of an opening: an even scalar register with the bits outside the fields zero (R216, R217). -/
def openBad (x : Iss) (f : MopenFmt) : Bool :=
  f.rsv ≠ 0#8 || !RKind.s.ok f.a || f.a.toNat % 2 = 1 || (x.s f.a).toNat ≥ 2 ^ 44 || (x.e.getS (f.a.toNat + 1)).toNat ≥ 2 ^ 54

/-- MZERO -/
def execMzero (n : Nat) (f : MopenFmt) (s : State) : Host.Outcome State Fault Refusal :=
  run (fun m => m.issue n (.mopen false f) (fun m x =>
    if openBad x f || f.pr ≠ 0#6 || f.pfmt ≠ 0#2 || f.shape ≠ 0#2 || f.pstride ≠ 0#12 then .fault m x.illegal
    else if x.e.mmaOn f.t.toNat then .hold
    else openTile m x f none)) s

/-- MPRE. The event of a refused preload format names ZA as its target: DESIGN CHOICE, log entry 88. -/
def execMpre (n : Nat) (f : MopenFmt) (s : State) : Host.Outcome State Fault Refusal :=
  run (fun m => m.issue n (.mopen true f) (fun m x =>
    if openBad x f || !RKind.s.ok f.pr || f.shape = 3#2 then .fault m x.illegal
    else if x.e.mmaOn f.t.toNat then .hold
    else if f.mode = 1#1 || f.pfmt = 3#2 then .fault m (fmtBad f.pfmt.toNat 0xF false 0 x.e.ctx.opid)
    else openTile m x f (some ⟨(x.s f.pr).toNat, (Fmt.ofCode f.pfmt.toNat).getD .b32, f.shape.toNat, f.pstride.toNat⟩))) s

/-! MDRAIN -/

/-- Takes a tile, or a pair, out of the engine (R191). -/
def Engine.closeTiles (e : Engine) (t : Nat) (pair : Bool) : Engine :=
  let e := e.setTile t none
  if pair then e.setTile (t + 1) none else e

/-- The tile that an MDRAIN names with the descriptor b: a closed tile without a pair, a bad field of the descriptor, and a pair with a closed tile
are refused (R178, R189, R220). The order of the three is a DESIGN CHOICE, log entry 88. -/
def Iss.drainTile (x : Iss) (tno at' : Nat) (b : List Nat) : Except KFault Tile :=
  let two := bitsOf (field b 11 1) 0 4 = 8
  match x.e.getTile tno with
  | none =>
    if !two then .error { code := Ev.accNotOpen, d0 := tno, d1 := x.e.pc, d2 := x.e.ctx.opid }
    else match drainDescBad b (tno % 2 = 1) with
      | some i => .error { code := Ev.descBad, d0 := at', d1 := i, d2 := x.e.pc }
      | none => .error { code := Ev.accModeMismatch, d0 := tno, d2 := x.e.ctx.opid }
  | some t =>
    match drainDescBad b (tno % 2 = 1) with
    | some i => .error { code := Ev.descBad, d0 := at', d1 := i, d2 := x.e.pc }
    | none => .ok t

/-- The tile pair of a drain with RLOG = 8, or the refusal (R189). The format word of the event is 0: DESIGN CHOICE, log entry 88. -/
def Iss.pairOf (x : Iss) (tno : Nat) (t : Tile) : Except KFault Tile :=
  match x.e.getTile (tno + 1) with
  | some u => if t.agrees u then .ok u else .error { code := Ev.accModeMismatch, d0 := tno, d2 := t.opid }
  | none => .error { code := Ev.accModeMismatch, d0 := tno, d2 := t.opid }

/-- The outcomes of D1 for a tile and the second of its pair: `chk` below 256 names a line of the first, from 256 on of the second (R193, R194). -/
def Mod.checkTiles (m : Mod) (x : Iss) (tno : Nat) (t : Tile) (pair : Option Tile) (chk : Option Nat) : Mod :=
  let m := m.checkTile x.k tno t (chk.filter (· < 256))
  match pair with
  | some u => m.checkTile x.k (tno + 1) u ((chk.filter (256 ≤ ·)).map (· - 256))
  | none => m

/-- A drain in the engine's own drain unit. A tile that does not hold leaf 0 is a part of a reduction (R108, R116), so its preload sets NONREF
(R113 case 2). DEDUCED, log entry 88. A tile drained here adds up its chunks as R179 has them, wherever its CHUNK_BASE lies: NONREF stays clear without a preload.
DESIGN CHOICE, log entry 88. -/
def drainOwn (m : Mod) (x : Iss) (p : DrainPlan) (chk : Option Nat) : Res :=
  m.using x ((preAccs p.t ++ ((p.pair.map preAccs).getD [])) ++ p.accs)
    (orElse m (m.drainData x p)
      (m.drainGo x p (p.rows (m.es x.k)) (if p.t.int then firstOvf p.elems else none) (p.t.pre.isSome && decide (p.t.g ≤ p.t.chunkBase)) (x.e.nsSeq + 1) none
        (fun m => m.checkTiles x p.tno p.t p.pair chk)
        (fun m j => .next (m.upd x (fun e =>
          { (e.closeTiles p.tno p.pair.isSome) with jobs := e.jobs ++ [.drain j], nsSeq := e.nsSeq + 1 })))))

/-- The engines of a task in a panel, ascending (R433). -/
def Task.inPanel (t : Task) (p : Nat) : List Nat := t.desc.engines.filter (fun n => n / 48 = p)

/-- Two parts agree in the fields of R434 and in width. -/
def PtPart.agrees (a b : PtPart) : Bool :=
  a.tile.int = b.tile.int && a.tile.seglen = b.tile.seglen && a.tile.rmode = b.tile.rmode && a.tile.treeLog = b.tile.treeLog
  && a.tile.opid = b.tile.opid && a.tile.step = b.tile.step && a.tile.ebase = b.tile.ebase && a.pair.isSome = b.pair.isSome

/-- A part enters its group (R433, R434): it waits when its panel holds eight others; a group of more than 32 engines, or with parts that disagree,
is refused. `alloc` allocates what the part pushes (R248). -/
def ptEnter (m : Mod) (x : Iss) (part : PtPart) (tno : Nat) (chk : Option Nat) (alloc : Mod → Mod × List Nat) : Res :=
  match x.e.task with
  | none => .hold
  | some (q, idx) =>
    let panel := x.n / 48
    let ord := x.e.ptCount.getD tno 0
    let mine := fun (g : PtGroup) => decide (g.task = (q, idx)) && g.panel = panel && g.tile = tno && g.ord = ord
    let old := m.ptGroups.find? mine
    if old.isNone && (m.ptGroups.filter (fun g => g.panel = panel)).length ≥ 8 then .hold
    else
      let g := old.getD ⟨(q, idx), panel, tno, ord, []⟩
      let size := ((m.task? q idx).map (fun t => (t.inPanel panel).length)).getD 0
      let bad := if size > 32 then some 1 else if g.parts.any (fun p => !p.agrees part) then some 2 else none
      let rest := m.ptGroups.filter (fun h => h ≠ g)
      let m := m.checkTiles x tno part.tile part.pair chk
      match bad with
      | some r =>
        .fault (({ m with ptGroups := rest ++ (if g.parts.isEmpty then [] else [g]) }.ptRefuse g r).bump (pgPanel panel) 0x188 1)
          { code := Ev.ptGroupBad, d0 := panel, d1 := r, d2 := tno, page := some (pgPanel panel) }
      | none =>
        let (m, pieces) := alloc m
        .next ({ m with ptGroups := rest ++ [{ g with parts := g.parts ++ [{ part with pieces }] }] }.upd x (fun e =>
          { (e.closeTiles tno part.pair.isSome) with ptCount := e.ptCount.set tno (ord + 1), nsSeq := e.nsSeq + 1 }))

/-- MDRAIN -/
def execMdrain (n : Nat) (f : MdrainFmt) (chk : Option Nat) (s : State) : Host.Outcome State Fault Refusal :=
  run (fun m => m.issue n (.mdrain f) (fun m x =>
    let tno := f.t.toNat
    let at' := (x.s f.a).toNat
    let tap := if f.tap = 1#1 then some f.la.toNat else none
    if f.rsv ≠ 0#43 || !RKind.s.ok f.a then .fault m x.illegal
    else if x.e.mmaOn tno then .hold
    else
      m.using x [{ off := at', n := 64, align := 64 }]
        (let b := m.esBytes x at' 64
         match x.drainTile tno at' b with
         | .error k => .fault m k
         | .ok t =>
           let two := bitsOf (field b 11 1) 0 4 = 8
           if (two && x.e.mmaOn (tno + 1)) || ((descPushes b || descPops b) && m.ptStacks x) then .hold
           else
             let pair := if two then (x.pairOf tno t).map some else .ok none
             match pair with
             | .error k => .fault m k
             | .ok u =>
               if f.pt = 1#1 then
                 let part : PtPart := { slot := x.k, eng := x.n, tile := t, pair := u, desc := b, tap, at', pc := x.e.pc, seq := x.e.nsSeq + 1, ctx := x.e.ctx }
                 if t.chunkBase < t.g then
                   match drainPlan x at' b tno t u tap with
                   | .error k => .fault m k
                   | .ok p => m.using x ((preAccs t ++ ((u.map preAccs).getD [])) ++ p.accs) (orElse m (m.drainData x p)
                     (match m.planPush x p with
                      | .error k => m.pushFault k
                      | .ok push => ptEnter m x { part with push := some push } tno chk (fun m => m.pushAlloc x p push)))
                 else m.using x (preAccs t ++ ((u.map preAccs).getD [])) (ptEnter m x part tno chk (fun m => (m, [])))
               else
                 match drainPlan x at' b tno t u tap with
                 | .error k => .fault m k
                 | .ok p => drainOwn m x p chk))) s

/-- MDRAIN_COMPLETE: drains leave the drain unit in program order (R90, R195) -/
def execMdrainComplete (n tile : Nat) (s : State) : Host.Outcome State Fault Refusal :=
  run (fun m =>
    match m.slotOf n with
    | none => m
    | some k =>
      match (m.eng k).jobs.findSome? (fun j => match j with | .drain x => some x | _ => none) with
      | some j => if j.tile = tile then m.doneDrain k j else m
      | none => m) s

/-! The panel reduction tree -/

/-- First leaf and end of the chunks of a part (R600). -/
def Tile.leafBase (t : Tile) : Nat := t.chunkBase / t.g
def Tile.chunkEnd (t : Tile) : Nat := t.chunkBase + t.nchunk

/-- C of a group: one more than the highest chunk that any part has added (R600). -/
def groupChunks (ts : List Tile) : Nat := ts.foldl (fun c t => if t.nchunk = 0 then c else max c t.chunkEnd) 0

/-- A part is aligned (R109, R600). -/
def Tile.aligned (t : Tile) (c : Nat) : Bool :=
  let n := 2 ^ t.leafLog
  let lb := t.leafBase
  let s := ceilDiv c t.g
  let full := min (lb + n) (s - 1)
  lb % n = 0 && lb + n ≤ 2 ^ t.treeLog && t.chunkBase % t.g = 0
  && (full ≤ lb || decide (full * t.g ≤ t.chunkEnd))
  && (s = 0 || s - 1 < lb || lb + n ≤ s - 1 || decide (c ≤ t.chunkEnd))

/-- No two parts cover one leaf. -/
def disjointLeaves : List Tile → Bool
  | [] => true
  | t :: rest =>
    rest.all (fun u => decide (t.leafBase + 2 ^ t.leafLog ≤ u.leafBase) || decide (u.leafBase + 2 ^ u.leafLog ≤ t.leafBase)) && disjointLeaves rest

/-- The split of a group is aligned (R112). -/
def groupAligned (ts : List Tile) : Bool := ts.all (fun t => t.aligned (groupChunks ts)) && disjointLeaves ts

/-- The level-2 node over leaves lo to lo + 2^k - 1: the part that holds just them, +0 where no part reaches, or the sum of its halves (R102, R110). -/
def panelNode (parts : List (Tile × Val)) : Nat → Nat → Val
  | 0, lo => ((parts.find? (fun p => p.1.leafBase = lo && p.1.leafLog = 0)).map (·.2)).getD Val.zero
  | k + 1, lo =>
    match parts.find? (fun p => p.1.leafBase = lo && p.1.leafLog = k + 1) with
    | some p => p.2
    | none =>
      if parts.any (fun p => decide (p.1.leafBase < lo + 2 ^ (k + 1)) && decide (lo < p.1.leafBase + 2 ^ p.1.leafLog)) then
        addZA .rne 0 (panelNode parts k lo) (panelNode parts k (lo + 2 ^ k))
      else Val.zero

/-- The combined value of the parts' values of one element (R110, R112). -/
def combineVals (aligned : Bool) (parts : List (Tile × Val)) : Val :=
  if aligned then panelNode parts ((parts.head?.map (fun p => p.1.treeLog)).getD 0) 0
  else treeRoot (addZA .rne 0) (log2Ceil parts.length) (parts.map (·.2))

/-- The exact sum of integer parts with the mark of R69 (R435). -/
def combineInts (els : List TElem) : TElem :=
  els.foldl (fun a el =>
    let s := a.sum + el.sum
    { a with sum := s, ovf := match a.ovf, el.ovf with
        | some b, _ => some b
        | none, some b => some b
        | none, none => if s < -(2 ^ 47) then some true else if s ≥ 2 ^ 47 then some false else none }) {}

/-- The parts of a group with the tile of each that one half of the output row comes from. -/
def PtPart.half (second : Bool) (p : PtPart) : Tile := if second then p.pair.getD p.tile else p.tile

/-- A part's roots; in an aligned split a preload that a part without leaf 0 holds is added at its subtree root (R113). -/
def partRoots (m : Mod) (aligned : Bool) (p : PtPart) (t : Tile) : List (List Val) :=
  if aligned && t.chunkBase ≠ 0 && t.pre.isSome then tileRows (m.es p.slot) 0 t 0 else t.roots

/-- The rows of a half of the output after D2 or D3 (R103, R110 to R113, R144, R435). `dq` and `col` serve integer tiles; `lead` is the part whose
descriptor governs. In an unaligned split every part's preload is added after the root, in part order: DESIGN CHOICE, log entry 68. -/
def groupRows (m : Mod) (aligned : Bool) (parts : List PtPart) (lead : PtPart) (second : Bool) (dq col : Nat) : List (List Val) :=
  let ts := parts.map (fun p => p.half second)
  if (lead.half second).int then
    let grids := ts.map Tile.grid
    (List.range 128).map (fun r => (List.range 128).map (fun c =>
      stageD3 (m.es lead.slot) dq (combineInts (grids.map (fun g => (g.getD r []).getD c {}))) r (col + c)))
  else
    let roots := (parts.zip ts).map (fun (p, t) => (t, partRoots m aligned p t))
    let pres := (parts.zip ts).filter (fun (_, t) => t.pre.isSome && (!aligned || t.chunkBase = 0))
    (List.range 128).map (fun r => (List.range 128).map (fun c =>
      let v := combineVals aligned (roots.map (fun (t, g) => (t, (g.getD r []).getD c Val.zero)))
      pres.foldl (fun a (p, t) => match t.pre with
        | some q => addZA .rne 0 a (preloadAt (m.es p.slot) q r c)
        | none => a) v))

/-- The elements of an integer group, for the overflow event (R69, R435). -/
def groupElems (parts : List PtPart) : List (List TElem) :=
  let half := fun (second : Bool) =>
    let grids := parts.map (fun p => (p.half second).grid)
    (List.range 128).map (fun r => (List.range 128).map (fun c => combineInts (grids.map (fun g => (g.getD r []).getD c {}))))
  if parts.any (fun p => p.pair.isSome) then List.zipWith (· ++ ·) (half false) (half true) else half false

/-- Parts in ascending logical index (R110). -/
def sortParts : List PtPart → List PtPart
  | [] => []
  | p :: t => let r := sortParts t; (r.takeWhile (fun q => q.eng < p.eng)) ++ p :: r.dropWhile (fun q => q.eng < p.eng)

/-- The part whose descriptor governs: the one that holds leaf 0, or the lowest logical index in an unaligned split (R433), and also in an aligned
one in which no part holds leaf 0. DEDUCED, log entry 68. -/
def leadPart (aligned : Bool) (parts : List PtPart) : Option PtPart :=
  if aligned then
    match parts.find? (fun p => p.tile.chunkBase < p.tile.g) with
    | some p => some p
    | none => parts.head?
  else parts.head?

/-- Every engine of the task in the panel has drained into the group, and the earlier drains of those engines are complete. -/
def Mod.ptWhole (m : Mod) (g : PtGroup) : Bool :=
  ((m.task? g.task.1 g.task.2).map (fun t => (t.inPanel g.panel).all (fun n => g.parts.any (fun p => p.eng = n)))).getD false
  && g.parts.all (fun p => !(m.eng p.slot).jobs.any (fun j => match j with | .drain d => d.seq < p.seq | _ => false))

/-- The MDRAIN of a part whose descriptor does not govern completes with its group (R433). It has converted nothing, so that it sets NSTAT to 0 (R210).
DEDUCED, log entry 68. -/
def Mod.donePart (m : Mod) (p : PtPart) : Mod :=
  let e := m.eng p.slot
  (m.setEng p.slot { e with nstat := if p.seq = e.nsSeq then 0#16 else e.nstat }).bump (pgSlot p.slot) 0x190 1

/-- Combines a whole group and drains it with the lead's descriptor (R433). -/
def Mod.ptCombine (m : Mod) (g : PtGroup) : Mod :=
  let parts := sortParts g.parts
  let ts := parts.map (·.tile)
  let aligned := groupAligned ts
  let int := ts.any (·.int)
  match leadPart (aligned || int) parts with
  | none => m
  | some lead =>
    let x : Iss := { k := lead.slot, n := lead.eng, e := { m.eng lead.slot with pc := lead.pc, ctx := lead.ctx }, w := BitVec.ofNat 64 (0xA4 * 2 ^ 56) }
    let closed := ({ m with ptGroups := m.ptGroups.filter (fun h => h ≠ g) } : Mod).each ((parts.filter (fun q => q.eng ≠ lead.eng)).flatMap (·.pieces)) Mod.jtDrop
    let late := !int && aligned && ts.any (fun t => t.pre.isSome && t.chunkBase ≠ 0)
    let count := fun (m : Mod) => let m := (m.each (parts.filter (fun q => q.eng ≠ lead.eng)) Mod.donePart).bump (pgPanel g.panel) 0x180 1
                                  if aligned || int then m else m.bump (pgPanel g.panel) 0x184 1
    let refuse := fun (m : Mod) (f : KFault) =>
      let m := (m.each lead.pieces Mod.jtDrop).faultOne lead.slot { f with pc := some lead.pc }
      Mod.ptSweep m.ptGroups.length m
    match drainPlan x lead.at' lead.desc g.tile lead.tile lead.pair lead.tap with
    | .error f => refuse closed f
    | .ok p =>
      let xs0 := groupRows m aligned parts lead false p.d.dq 0
      let xs := if lead.pair.isSome then List.zipWith (· ++ ·) xs0 (groupRows m aligned parts lead true p.d.dq 128) else xs0
      let res := closed.using x p.accs (orElse closed (closed.drainData x p)
        (closed.drainGo x p xs (if int then firstOvf (groupElems parts) else none) (!int && (!aligned || late)) lead.seq (lead.push.map (·, lead.pieces)) id
          (fun m j => .next (m.doneDrain lead.slot j))))
      match res with
      | .next m2 => count m2
      | .fault m2 f => refuse m2 f
      | _ => m

/-- PANEL_TREE_COMBINE: the g-th open group, once every engine has drained into it (R433) -/
def execPanelTreeCombine (g : Nat) (s : State) : Host.Outcome State Fault Refusal :=
  run (fun m =>
    match m.ptGroups[g]? with
    | some x => if m.ptWhole x then m.ptCombine x else m
    | none => m) s

end Sys2Proof.Machine
end

