-- ==== Sys2Proof/Machine/OptInstr.lean ====
section
/-! DEFINITION. The optimiser instructions (R267 to R273, R277): descriptor, clip factor, ledger entries, the rows parameter by parameter, records. -/
namespace Sys2Proof.Machine

/-- The clip factor that an instruction uses: the value, a wait for c, or DESC_BAD (R277). -/
inductive ClipUse where
  | val (v : Val)
  | wait
  | bad
  deriving DecidableEq, Repr

def Mod.clipUse (m : Mod) (d : OptDesc) (step : Nat) : ClipUse :=
  let known := m.clip.valid && m.clip.step = step
  if !d.csrc then .val d.clip
  else
    match m.fld pgEp 0x900 0 2 with
    | 0 => .val (Val.ofInt 1)
    | 1 => if known then .val (Fmt.b32.decode m.clip.factor) else .wait
    | 2 => .val (if known then Fmt.b32.decode m.clip.factor else Val.ofInt 1)
    | _ => .bad

/-- One output of R271: target, scale mode, mode after R81, STRICT, slot, ledger entry, source code of the record, data and scale offsets. -/
structure OptOut where
  tgt : Fmt
  smode : Nat
  mode : RMode
  strict : Bool
  slot : Nat
  led : Nat
  src : Nat
  off : Nat
  sc : Nat
  deriving DecidableEq, Repr, Inhabited

/-- The outputs of an instruction in the order of R271. -/
def optOuts (op : OptOp) (d : OptDesc) : List OptOut :=
  let md := fun (t : Fmt) (c : Nat) => finalMode t false (if c = 5 then .sr else .rne)
  let ut : Fmt := if d.updZg then .zg8 else .zf8
  [⟨.zf24, 0, md .zf24 d.rMaster, false, 0, 0, 0, d.master, 0⟩, ⟨.zf8, d.smode1, md .zf8 d.rMom, d.strict, 1, d.led1, 0, d.mom1, d.mom1Sc⟩]
  ++ (if op = .m2 then [⟨.zf8u, d.smode2, md .zf8u d.rMom, d.strict, 2, d.led2, 0, d.mom2, d.mom2Sc⟩] else [])
  ++ [⟨.zf8, d.smodeW, md .zf8 d.rWork, d.strict, 3, d.ledW, 1, d.work, d.workSc⟩]
  ++ (if d.updEn then [⟨ut, d.smodeU, md ut d.rUpd, d.strict, 4, d.ledU, 0, d.upd, d.updSc⟩] else [])

/-- The value that an output converts. WORK converts the ZF24 master as written. -/
def optOutVal (o : OptOut) (v : OptVals) (master : Nat) : Val :=
  match o.slot with
  | 0 => v.w
  | 1 => v.m
  | 2 => v.v
  | 3 => Fmt.zf24.decode master
  | _ => v.d

/-- The engine-store accesses of an instruction (R206, R269). -/
def optAccs (op : OptOp) (d : OptDesc) : List Acc :=
  let rows := d.rows
  let data := fun (t : Fmt) (off : Nat) (wr : Bool) => ({ off, n := rows * t.bytes 128, align := 64, wr } : Acc)
  let scales := fun (off per : Nat) (wr : Bool) => ({ off, n := rows * per, align := 1, wr } : Acc)
  let ut : Fmt := if d.updZg then .zg8 else .zf8
  [data .zf24 d.master false, data .zf8 d.mom1 false, scales d.mom1Sc 1 false]
  ++ (if op = .m2 then [data .zf8u d.mom2 false, scales d.mom2Sc 1 false] else [])
  ++ [data .zg8 d.grad false]
  ++ (match blockSize d.smodeG with
    | some b => [scales d.gradSc (ceilDiv 128 b) false]
    | none => if d.smodeG = 1 then [{ off := d.gradSc, n := 1, align := 64 }] else [])
  ++ [data .zf24 d.master true, data .zf8 d.mom1 true, scales d.mom1Sc 1 true]
  ++ (if op = .m2 then [data .zf8u d.mom2 true, scales d.mom2Sc 1 true] else [])
  ++ [data .zf8 d.work true, scales d.workSc 1 true]
  ++ (if d.updEn then [data ut d.upd true, scales d.updSc 1 true] else [])
  ++ (if d.recNone then [] else [{ off := d.recOff, n := 32 * (optOuts op d).length, align := 32, wr := true }])

/-- The inputs of parameter i and its update (R270). -/
def optParam (rd : Nat → Nat) (op : OptOp) (d : OptDesc) (clip : Val) (i : Nat) : OptVals :=
  let el := fun (t : Fmt) (off : Nat) => t.decode (readElem rd t off i)
  let g := dqB32 (applyCode (el .zg8 d.grad)
    (scaleCode rd d.smodeG d.gradSc (match blockSize d.smodeG with | some b => ceilDiv 128 b | none => 0) (i / 128) (i % 128)))
  let mo := dqB32 (applyCode (el .zf8 d.mom1) (rd (d.mom1Sc + i / 128)))
  let v := if op = .m2 then dqB32 (applyCode (el .zf8u d.mom2) (rd (d.mom2Sc + i / 128))) else Val.zero
  optStep op d clip g mo v (el .zf24 d.master)

/-- What the instruction carries from row to row: for each output its record, ledger entry and overridden blocks. -/
abbrev OptAcc := List QAcc

/-- The codes of one row's outputs, chosen from the row's values as they stand when the row begins (R137, R149), with the ledger folds. -/
def optCodes (x : Iss) (outs : List OptOut) (vals : List OptVals) (masters : List Nat) (step : Nat) (accs : OptAcc) : List Nat × OptAcc :=
  ((outs.zip accs).map (fun (o, a) =>
    if o.slot = 0 then (0x60, a)
    else
      let q : QSpec := { tgt := o.tgt, smode := o.smode, mode := .rne, strict := o.strict, key := x.key, step }
      let els := (vals.zip masters).map (fun (v, ms) => ({ x := optOutVal o v ms, e := 0 } : QElem))
      let (b, a') := quantBlock q a els
      (b.code.getD 0x60, { a' with cnt := a.cnt }))).unzip

/-- One parameter: reads its inputs, then writes its outputs in order (R271, R273). -/
def optElem (x : Iss) (op : OptOp) (d : OptDesc) (clip : Val) (outs : List OptOut) (codes : List Nat) (st : Mod × OptAcc) (i : Nat) : Mod × OptAcc :=
  let v := optParam (st.1.es x.k) op d clip i
  let e := x.e.ctx.ebase + i
  let conv := fun (o : OptOut) (z : Nat) (val : Val) =>
    o.tgt.convert o.mode o.strict (if o.mode = .sr then x.key.draw e o.slot else 0) (val.scale (96 - (z : Int)))
  let master := match outs.head? with
    | some o => (conv o 0x60 v.w).1
    | none => 0
  ((outs.zip codes).zip st.2).foldl (fun (s : Mod × OptAcc) ((o, z), a) =>
    let val := optOutVal o v master
    let (b, cls) := conv o z val
    (s.1.putEsPairs x (packElems (s.1.es x.k) o.tgt o.off i [some b]), s.2 ++ [{ a with cnt := a.cnt.note val cls }])) (st.1, [])

/-- One row of 128 parameters with its scale bytes. DEDUCED, log entry 40. -/
def optRow (x : Iss) (op : OptOp) (d : OptDesc) (clip : Val) (outs : List OptOut) (st : Mod × OptAcc) (r : Nat) : Mod × OptAcc :=
  let rd := st.1.es x.k
  let vals := (List.range 128).map (fun j => optParam rd op d clip (128 * r + j))
  let mo := (outs.head?).map (·.mode)
  let masters := vals.zipIdx.map (fun (v, j) =>
    (Fmt.zf24.convert (mo.getD .rne) false (if mo = some .sr then x.key.draw (x.e.ctx.ebase + 128 * r + j) 0 else 0) v.w).1)
  let (codes, accs) := optCodes x outs vals masters x.e.ctx.step st.2
  let (m, accs) := (List.range 128).foldl (fun s j => optElem x op d clip outs codes s (128 * r + j)) (st.1, accs)
  (m.putEsPairs x ((outs.zip codes).filterMap (fun (o, z) => if o.slot = 0 then none else some (o.sc + r, z))), accs)

/-- Opens the LEDGER outputs one after another (R147, R271): the accumulators with their entries, and whether one was seeded. -/
def optOpen (x : Iss) : List OptOut → Mod → OptAcc → Bool → Mod × Except KFault (OptAcc × Bool)
  | [], m, accs, seeded => (m, .ok (accs, seeded))
  | o :: t, m, accs, seeded =>
    let c := x.e.ctx
    let acc : QAcc := { cnt := NumRec.start o.tgt o.src o.mode false o.strict c.opid c.step }
    if o.smode = 3 then
      match m.ledgerOpen (x.use c.opid c.step true) o.led o.tgt with
      | (m, .error f) => (m, .error f)
      | (m, .ok w) => optOpen x t m (accs ++ [{ acc with entry := some w.entry }]) (seeded || w.seeded)
    else optOpen x t m (accs ++ [acc]) seeded

/-- The whole instruction once its operands are accepted. EBASE and the positions wrap at 2^44 where nothing draws by them (R269, R77): DESIGN CHOICE, log
entry 101. -/
def optRun (m : Mod) (x : Iss) (op : OptOp) (d : OptDesc) (clip : Val) : Res :=
  let outs := optOuts op d
  let c := x.e.ctx
  match optOpen x outs m [] false with
  | (m, .error f) => .fault m f
  | (m, .ok (accs, seeded)) =>
    let (m, accs) := (List.range d.rows).foldl (optRow x op d clip outs) (m, accs)
    let uses := (outs.zip accs).flatMap (fun (o, a) => a.entry.toList.map (fun e => (o.led, a.ovrs, e)))
    match Mod.ledgerCloses (x.use c.opid c.step true) uses m with
    | (m, some f) => .fault m f
    | (m, none) =>
      let m := m.each accs.zipIdx (fun m (a, i) => m.putRecord x.k (if d.recNone then none else some (d.recOff + 32 * i)) a.cnt)
      .next (m.upd x (fun e => { e with nstat := nstatJoin (accs.map (·.cnt)) (accs.any (fun a => a.ovrs ≠ 0)) seeded, nsSeq := e.nsSeq + 1,
                                        ctx := { e.ctx with ebase := (e.ctx.ebase + 128 * d.rows) % 2 ^ 44 } }))

/-- An OPT.* instruction (R267 to R273, R277). -/
def optInstr (m : Mod) (x : Iss) (f : RFmt) (op : OptOp) : Res :=
  let c := x.e.ctx
  let at' := (x.s f.a).toNat
  if !regsOk f .any .s .any .any then .fault m x.illegal
  else
    m.using x [{ off := at', n := 128, align := 64 }]
      (let b := m.esBytes x at' 128
       let d := OptDesc.ofBytes b
       let bad := fun (i : Nat) => ({ code := Ev.descBad, d0 := at', d1 := i, d2 := x.e.pc } : KFault)
       match optDescBad op b with
       | some i => .fault m (bad i)
       | none =>
         if let some r := d.rReserved then .fault m (fmtBad 0 3 false r c.opid)
         else if d.smodeG = 7 then .fault m (smodeBad 7 4 c.opid)
         else
           match m.clipUse d c.step with
           | .bad => .fault m (bad 60)
           | .wait => .wait (m.upd x (fun e => { e with wait := .clip c.step at' }))
           | .val clip =>
             let sr := (optOuts op d).any (fun o => o.mode = .sr)
             m.using x (optAccs op d)
               (orElse m [if sr then x.eRange (c.ebase + 128 * d.rows - 1) .sr else none, if sr then m.rngRefuse x else none]
                 (optRun m x op d clip)))

/-- OPT.M2 -/
def execOptM2 (n : Nat) (f : RFmt) (s : State) : Host.Outcome State Fault Refusal :=
  run (fun m => m.issue n (.r 0x90#8 f) (fun m x => optInstr m x f .m2)) s

/-- OPT.M1 -/
def execOptM1 (n : Nat) (f : RFmt) (s : State) : Host.Outcome State Fault Refusal :=
  run (fun m => m.issue n (.r 0x91#8 f) (fun m x => optInstr m x f .m1)) s

/-- OPT.SGN -/
def execOptSgn (n : Nat) (f : RFmt) (s : State) : Host.Outcome State Fault Refusal :=
  run (fun m => m.issue n (.r 0x92#8 f) (fun m x => optInstr m x f .sgn)) s

end Sys2Proof.Machine
end

