-- ==== Sys2Proof/Machine/Scalar.lean ====
section
/-! DEFINITION. The scalar instructions (R221): integer and binary32 arithmetic, immediates, and scalar loads and stores. -/
namespace Sys2Proof.Machine

/-! The shapes -/

/-- sD = op of sA and sB. -/
def scalarRR (m : Mod) (x : Iss) (f : RFmt) (op : W64 → W64 → W64) : Res :=
  if regsOk f .s .s .s .any then .next (m.putS x f.d (op (x.s f.a) (x.s f.b))) else .fault m x.illegal

/-- sD = op of sA and IMM. -/
def scalarRI (m : Mod) (x : Iss) (f : IFmt) (op : W64 → W64 → W64) : Res :=
  if immOk f then .next (m.putS x f.d (op (x.s f.a) (imm64 f))) else .fault m x.illegal

/-- A shift by IMM[5:0]; IMM[43:6] is reserved. -/
def scalarShI (m : Mod) (x : Iss) (f : IFmt) (op : W64 → Nat → W64) : Res :=
  if immOk f && f.imm.toNat < 64 then .next (m.putS x f.d (op (x.s f.a) f.imm.toNat)) else .fault m x.illegal

/-- A binary32 operation of sA and sB, and sC where `c` says so. -/
def scalarF (m : Mod) (x : Iss) (f : RFmt) (c : RKind) (op : Val → Val → Val → Val) : Res :=
  if regsOk f .s .s .s c then .next (m.putS x f.d (b32s (op (x.f f.a) (x.f f.b) (x.f f.c)))) else .fault m x.illegal

/-- The shift count sB mod 64. -/
def shamt (b : W64) : Nat := b.toNat % 64

/-- The signed minimum and maximum. -/
def smin (a b : W64) : W64 := if a.slt b then a else b
def smax (a b : W64) : W64 := if a.slt b then b else a

/-- The high 64 bits of the unsigned product. -/
def mulhu64 (a b : W64) : W64 := BitVec.ofNat 64 (a.toNat * b.toNat / 2 ^ 64)

/-- LIH: bits 63 to 44 from IMM[19:0], the rest from sA. -/
def lih64 (a : W64) (imm : Nat) : W64 := (a &&& 0x00000FFFFFFFFFFF#64) ||| (BitVec.ofNat 64 imm <<< 44)

/-- FCVT.SI: binary32 to a 64-bit integer, toward zero; NaN gives 0, a value out of range clamps. -/
def fcvtSi64 (v : Val) : W64 :=
  let lim : Int := 2 ^ 63
  match v with
  | .nan => 0#64
  | .inf n => BitVec.ofInt 64 (if n then -lim else lim - 1)
  | .fin n m e =>
    let mag : Int := (if e ≥ 0 then m <<< e.toNat else m >>> (-e).toNat : Nat)
    BitVec.ofInt 64 (max (-lim) (min (lim - 1) (if n then -mag else mag)))

/-- FCVT.IS: a signed 64-bit integer to binary32, RNE. -/
def fcvtIs64 (a : W64) : W64 := b32s (roundB32 .rne 0 (Val.ofInt a.toInt))

/-- The engine-store offset sA + IMM in 64-bit arithmetic (R206). -/
def Iss.immOff (x : Iss) (f : IFmt) : Nat := (x.s f.a + (imm64 f)).toNat

/-- A scalar load of n bytes, zero-extended. -/
def scalarLd (m : Mod) (x : Iss) (f : IFmt) (n : Nat) : Res :=
  if immOk f then
    let off := x.immOff f
    m.using x [{ off, n, align := n }] (.next (m.putS x f.d (BitVec.ofNat 64 (m.esNum x off n))))
  else .fault m x.illegal

/-- A scalar store of the low n bytes of sD. -/
def scalarSt (m : Mod) (x : Iss) (f : IFmt) (n : Nat) : Res :=
  if immOk f then
    let off := x.immOff f
    m.using x [{ off, n, align := n, wr := true }] (.next (m.putEs x off (leBytes n (x.s f.d).toNat)))
  else .fault m x.illegal

/-! The meanings -/

/-- ADD -/
def execAdd (n : Nat) (f : RFmt) (s : State) : Host.Outcome State Fault Refusal :=
  run (fun m => m.issue n (.r 0x01#8 f) (fun m x => scalarRR m x f (fun a b => a + b))) s

/-- SUB -/
def execSub (n : Nat) (f : RFmt) (s : State) : Host.Outcome State Fault Refusal :=
  run (fun m => m.issue n (.r 0x02#8 f) (fun m x => scalarRR m x f (fun a b => a - b))) s

/-- AND -/
def execAnd (n : Nat) (f : RFmt) (s : State) : Host.Outcome State Fault Refusal :=
  run (fun m => m.issue n (.r 0x03#8 f) (fun m x => scalarRR m x f (fun a b => a &&& b))) s

/-- OR -/
def execOr (n : Nat) (f : RFmt) (s : State) : Host.Outcome State Fault Refusal :=
  run (fun m => m.issue n (.r 0x04#8 f) (fun m x => scalarRR m x f (fun a b => a ||| b))) s

/-- XOR -/
def execXor (n : Nat) (f : RFmt) (s : State) : Host.Outcome State Fault Refusal :=
  run (fun m => m.issue n (.r 0x05#8 f) (fun m x => scalarRR m x f (fun a b => a ^^^ b))) s

/-- SHL -/
def execShl (n : Nat) (f : RFmt) (s : State) : Host.Outcome State Fault Refusal :=
  run (fun m => m.issue n (.r 0x06#8 f) (fun m x => scalarRR m x f (fun a b => a <<< shamt b))) s

/-- SHR, logical -/
def execShr (n : Nat) (f : RFmt) (s : State) : Host.Outcome State Fault Refusal :=
  run (fun m => m.issue n (.r 0x07#8 f) (fun m x => scalarRR m x f (fun a b => a >>> shamt b))) s

/-- SRA, arithmetic -/
def execSra (n : Nat) (f : RFmt) (s : State) : Host.Outcome State Fault Refusal :=
  run (fun m => m.issue n (.r 0x08#8 f) (fun m x => scalarRR m x f (fun a b => a.sshiftRight (shamt b)))) s

/-- MUL, the low 64 bits -/
def execMul (n : Nat) (f : RFmt) (s : State) : Host.Outcome State Fault Refusal :=
  run (fun m => m.issue n (.r 0x09#8 f) (fun m x => scalarRR m x f (fun a b => a * b))) s

/-- MULHU -/
def execMulhu (n : Nat) (f : RFmt) (s : State) : Host.Outcome State Fault Refusal :=
  run (fun m => m.issue n (.r 0x0A#8 f) (fun m x => scalarRR m x f mulhu64)) s

/-- MIN, signed -/
def execMin (n : Nat) (f : RFmt) (s : State) : Host.Outcome State Fault Refusal :=
  run (fun m => m.issue n (.r 0x0B#8 f) (fun m x => scalarRR m x f smin)) s

/-- MAX, signed -/
def execMax (n : Nat) (f : RFmt) (s : State) : Host.Outcome State Fault Refusal :=
  run (fun m => m.issue n (.r 0x0C#8 f) (fun m x => scalarRR m x f smax)) s

/-- SLT, signed -/
def execSlt (n : Nat) (f : RFmt) (s : State) : Host.Outcome State Fault Refusal :=
  run (fun m => m.issue n (.r 0x0D#8 f) (fun m x => scalarRR m x f (fun a b => if a.slt b then 1#64 else 0#64))) s

/-- SLTU -/
def execSltu (n : Nat) (f : RFmt) (s : State) : Host.Outcome State Fault Refusal :=
  run (fun m => m.issue n (.r 0x0E#8 f) (fun m x => scalarRR m x f (fun a b => if a.ult b then 1#64 else 0#64))) s

/-- ADDI -/
def execAddi (n : Nat) (f : IFmt) (s : State) : Host.Outcome State Fault Refusal :=
  run (fun m => m.issue n (.i 0x10#8 f) (fun m x => scalarRI m x f (fun a b => a + b))) s

/-- ANDI -/
def execAndi (n : Nat) (f : IFmt) (s : State) : Host.Outcome State Fault Refusal :=
  run (fun m => m.issue n (.i 0x11#8 f) (fun m x => scalarRI m x f (fun a b => a &&& b))) s

/-- ORI -/
def execOri (n : Nat) (f : IFmt) (s : State) : Host.Outcome State Fault Refusal :=
  run (fun m => m.issue n (.i 0x12#8 f) (fun m x => scalarRI m x f (fun a b => a ||| b))) s

/-- XORI -/
def execXori (n : Nat) (f : IFmt) (s : State) : Host.Outcome State Fault Refusal :=
  run (fun m => m.issue n (.i 0x13#8 f) (fun m x => scalarRI m x f (fun a b => a ^^^ b))) s

/-- SHLI -/
def execShli (n : Nat) (f : IFmt) (s : State) : Host.Outcome State Fault Refusal :=
  run (fun m => m.issue n (.i 0x14#8 f) (fun m x => scalarShI m x f (fun a k => a <<< k))) s

/-- SHRI -/
def execShri (n : Nat) (f : IFmt) (s : State) : Host.Outcome State Fault Refusal :=
  run (fun m => m.issue n (.i 0x15#8 f) (fun m x => scalarShI m x f (fun a k => a >>> k))) s

/-- SRAI -/
def execSrai (n : Nat) (f : IFmt) (s : State) : Host.Outcome State Fault Refusal :=
  run (fun m => m.issue n (.i 0x16#8 f) (fun m x => scalarShI m x f (fun a k => a.sshiftRight k))) s

/-- LI -/
def execLi (n : Nat) (f : IFmt) (s : State) : Host.Outcome State Fault Refusal :=
  run (fun m => m.issue n (.i 0x17#8 f) (fun m x =>
    if RKind.s.ok f.d then .next (m.putS x f.d (imm64 f)) else .fault m x.illegal)) s

/-- LIH; IMM[43:20] is reserved -/
def execLih (n : Nat) (f : IFmt) (s : State) : Host.Outcome State Fault Refusal :=
  run (fun m => m.issue n (.i 0x18#8 f) (fun m x =>
    if immOk f && f.imm.toNat < 2 ^ 20 then .next (m.putS x f.d (lih64 (x.s f.a) f.imm.toNat)) else .fault m x.illegal)) s

/-- FADD -/
def execFadd (n : Nat) (f : RFmt) (s : State) : Host.Outcome State Fault Refusal :=
  run (fun m => m.issue n (.r 0x20#8 f) (fun m x => scalarF m x f .any (fun a b _ => addB32 .rne a b))) s

/-- FSUB -/
def execFsub (n : Nat) (f : RFmt) (s : State) : Host.Outcome State Fault Refusal :=
  run (fun m => m.issue n (.r 0x21#8 f) (fun m x => scalarF m x f .any (fun a b _ => addB32 .rne a b.neg))) s

/-- FMUL -/
def execFmul (n : Nat) (f : RFmt) (s : State) : Host.Outcome State Fault Refusal :=
  run (fun m => m.issue n (.r 0x22#8 f) (fun m x => scalarF m x f .any (fun a b _ => mulB32 .rne a b))) s

/-- FFMA, one rounding -/
def execFfma (n : Nat) (f : RFmt) (s : State) : Host.Outcome State Fault Refusal :=
  run (fun m => m.issue n (.r 0x23#8 f) (fun m x => scalarF m x f .s (fun a b c => fmaB32 .rne a b c))) s

/-- FMIN -/
def execFmin (n : Nat) (f : RFmt) (s : State) : Host.Outcome State Fault Refusal :=
  run (fun m => m.issue n (.r 0x24#8 f) (fun m x => scalarF m x f .any (fun a b _ => a.minimum b))) s

/-- FMAX -/
def execFmax (n : Nat) (f : RFmt) (s : State) : Host.Outcome State Fault Refusal :=
  run (fun m => m.issue n (.r 0x25#8 f) (fun m x => scalarF m x f .any (fun a b _ => a.maximum b))) s

/-- FCVT.SI -/
def execFcvtSi (n : Nat) (f : RFmt) (s : State) : Host.Outcome State Fault Refusal :=
  run (fun m => m.issue n (.r 0x26#8 f) (fun m x =>
    if regsOk f .s .s .any .any then .next (m.putS x f.d (fcvtSi64 (x.f f.a))) else .fault m x.illegal)) s

/-- FCVT.IS -/
def execFcvtIs (n : Nat) (f : RFmt) (s : State) : Host.Outcome State Fault Refusal :=
  run (fun m => m.issue n (.r 0x27#8 f) (fun m x =>
    if regsOk f .s .s .any .any then .next (m.putS x f.d (fcvtIs64 (x.s f.a))) else .fault m x.illegal)) s

/-- LD -/
def execLd (n : Nat) (f : IFmt) (s : State) : Host.Outcome State Fault Refusal :=
  run (fun m => m.issue n (.i 0x30#8 f) (fun m x => scalarLd m x f 8)) s

/-- LDW, zero-extended -/
def execLdw (n : Nat) (f : IFmt) (s : State) : Host.Outcome State Fault Refusal :=
  run (fun m => m.issue n (.i 0x31#8 f) (fun m x => scalarLd m x f 4)) s

/-- ST -/
def execSt (n : Nat) (f : IFmt) (s : State) : Host.Outcome State Fault Refusal :=
  run (fun m => m.issue n (.i 0x32#8 f) (fun m x => scalarSt m x f 8)) s

/-- STW -/
def execStw (n : Nat) (f : IFmt) (s : State) : Host.Outcome State Fault Refusal :=
  run (fun m => m.issue n (.i 0x33#8 f) (fun m x => scalarSt m x f 4)) s

end Sys2Proof.Machine
end

