-- ==== Sys2Proof/Machine/Transfer.lean ====
section
/-! DEFINITION. DMA transfers under a tag, pushes and pops of pieces, event counters as an engine uses them, and FENCE (R170, R171, R223, R224, R248 to R255, R312 to R315). -/
namespace Sys2Proof.Machine

/-- Fields of a tagged instruction: tag and three scalar registers, with a tag that is free and unfaulted; a busy tag holds the instruction
(R203, R223). -/
def tagged (m : Mod) (x : Iss) (f : RFmt) (legal : Bool) (body : Res) : Res :=
  if !regsOk f .t .s .s .s || !legal then .fault m x.illegal
  else
    let t := x.e.getTag f.d.toNat
    if t.xfer.isSome then .hold
    else if t.fault then .fault m (x.e.tagFault f.d.toNat)
    else body

/-- Starts a transfer under a tag. -/
def Mod.startXfer (m : Mod) (x : Iss) (tag : Nat) (y : Xfer) : Mod := m.upd x (fun e => e.setTag tag { e.getTag tag with xfer := some y })

/-- The task of the engine is an optimiser task (R331). -/
def Mod.optTask (m : Mod) (x : Iss) : Bool :=
  match x.e.task with
  | some (q, idx) => ((m.task? q idx).map (fun t => t.desc.opt)).getD false
  | none => false

/-- The length of a DMA is a multiple of 64 of at most 4 MiB, and its global address has 60 bits (R603). -/
def dmaLegal (x : Iss) (f : RFmt) : Bool :=
  (x.s f.c).toNat % 64 = 0 && decide ((x.s f.c).toNat ≤ 0x400000) && decide ((x.s f.b).toNat < 2 ^ 60)

/-- DMA.G: locally the data moves at the transfer's completion; from another module a READ_REQ asks for it (R44, R45, R367) -/
def execDmaG (n : Nat) (f : RFmt) (s : State) : Host.Outcome State Fault Refusal :=
  run (fun m => m.issue n (.r 0xB0#8 f) (fun m x =>
    tagged m x f (dmaLegal x f)
      (let off := (x.s f.a).toNat
       let ga := (x.s f.b).toNat
       let len := (x.s f.c).toNat
       if len = 0 then .next m
       else
         match x.span off len 64 with
         | some k => .fault m k
         | none =>
           let remote := decide (ga / 2 ^ 44 ≠ m.modid)
           let y : Xfer := { kind := .get, off, addr := ga, len, remote }
           let m := m.startXfer x f.d.toNat y
           if remote then
             .next (m.post (.dma x.k f.d.toNat) (ga / 2 ^ 44) tyReadReq 4 false (ga % 2 ^ 44) (esAddr x.k off + len / 64 * 2 ^ 44) [])
           else .next m))) s

/-- A transfer ends well. -/
def Mod.xferOk (m : Mod) (k tag : Nat) : Mod := m.setEng k ((m.eng k).setTag tag {})

/-- A transfer takes a memory fault at a global address: the tag's fault bit and ENG_FAULT_ADDR, which a kernel fault holds until the next kernel is
placed (R171, R199). DEDUCED, log entry 70. -/
def Mod.xferBad (m : Mod) (k tag addr : Nat) : Mod :=
  let e := (m.eng k).setTag tag { fault := true, addr }
  m.setEng k { e with faultAddr := if e.faultCode = 0 then addr else e.faultAddr }

/-- The global address of the granule of a local address (R325). -/
def Mod.granule (m : Mod) (a : Nat) : Nat := m.modid * 2 ^ 44 + a / 64 * 64

/-- A local transfer has met poisoned data: in module memory, or spoilt on a path, it is a memory fault (R325, R445); an uncorrectable word of an
engine or panel store is a kernel fault (R443). -/
def Mod.xferPoison (m : Mod) (path : Bool) (k tag a : Nat) : Mod :=
  if path || regionOf a = .mem then m.xferBad k tag (m.granule a) else (m.xferOk k tag).kernelFault k { code := Ev.sramUe, said := true }

/-- DMA.P: to another module the bytes go in a WRITE message (R45, R314, R367) -/
def execDmaP (n : Nat) (f : RFmt) (s : State) : Host.Outcome State Fault Refusal :=
  run (fun m => m.issue n (.r 0xB1#8 f) (fun m x =>
    tagged m x f (dmaLegal x f)
      (let off := (x.s f.a).toNat
       let ga := (x.s f.b).toNat
       let len := (x.s f.c).toNat
       if len = 0 then .next m
       else
       match x.span off len 64 with
       | some k => .fault m k
       | none =>
         if ga / 2 ^ 44 ≠ m.modid then
           match m.firstPoison (esAddr x.k off) len with
           | some a =>
             if m.spoilt a then .next ((m.ueRead a).xferBad x.k f.d.toNat (m.granule a)) else .fault (m.ueRead a) { code := Ev.sramUe, said := true }
           | none =>
             let m := m.startXfer x f.d.toNat { kind := .put, off, addr := ga, len, remote := true }
             .next (m.post (.dma x.k f.d.toNat) (ga / 2 ^ 44) tyWrite 4 false (ga % 2 ^ 44) 0 (m.esBytes x off len))
         else .next (m.startXfer x f.d.toNat { kind := .put, off, addr := ga, len, opt := m.optTask x })))) s

/-- DMA.W (R171) -/
def execDmaW (n : Nat) (f : RFmt) (s : State) : Host.Outcome State Fault Refusal :=
  run (fun m => m.issue n (.r 0xB2#8 f) (fun m x =>
    if !regsOk f .t .any .any .any then .fault m x.illegal
    else
      let t := x.e.getTag f.d.toNat
      if t.xfer.isSome then .hold
      else if t.fault then .fault m (x.e.tagFault f.d.toNat)
      else .next m)) s

/-! Completion -/

/-- The bytes before the granule of the first refused or poisoned address of a local read move, and the tag ends (R170, R171, R325). -/
def Mod.endGet (m : Mod) (k tag : Nat) (y : Xfer) : Mod :=
  let a := y.addr % 2 ^ 44
  let part := fun (m : Mod) (stop : Nat) =>
    match m.access (.engine k) a with
    | .ok b => m.wr (esAddr k y.off) (m.bytesAt b ((stop - a) / 64 * 64))
    | .error _ => m
  let spoilt := fun (stop : Nat) => match m.access (.engine k) stop with
    | .ok b => m.spoilt b
    | .error _ => false
  match m.load (.engine k) a y.len with
  | (m, .ok bs) => (m.wr (esAddr k y.off) bs).xferOk k tag
  | (m, .refused stop _) => (part m stop).xferBad k tag (m.modid * 2 ^ 44 + stop)
  | (m, .poisoned stop) => (part m stop).xferPoison (spoilt stop) k tag stop

/-- A local write: what lies before the first refusal is written (R171). -/
def Mod.endPut (m : Mod) (k tag : Nat) (y : Xfer) : Mod :=
  match m.firstPoison (esAddr k y.off) y.len with
  | some a => (m.ueRead a).xferPoison (m.spoilt a) k tag a
  | none =>
    match m.store (.engine k) (y.addr % 2 ^ 44) (m.bytesAt (esAddr k y.off) y.len) y.opt with
    | (m, none) => m.xferOk k tag
    | (m, some stop) => m.xferBad k tag (m.modid * 2 ^ 44 + stop)

/-- The data of a push moves into its piece, which is then complete (R248). -/
def Mod.endPush (m : Mod) (k tag : Nat) (y : Xfer) : Mod :=
  match m.firstPoison (esAddr k y.off) y.len with
  | some a => (m.ueRead a).xferPoison (m.spoilt a) k tag a
  | none => ((m.jtData y.piece (m.bytesAt (esAddr k y.off) y.len)).pieceReady y.piece).xferOk k tag

/-- The data of a pop arrives; a poisoned granule of the piece is a memory fault (R325). -/
def Mod.endPop (m : Mod) (k tag : Nat) (y : Xfer) : Mod :=
  match y.bad with
  | some a => (m.ueRead a).xferBad k tag (m.granule a)
  | none => (m.wr (esAddr k y.off) y.data).xferOk k tag

/-- DMA_TRANSFER_COMPLETE: the transfer under a tag completes or stops; one that other modules serve waits for their answer (R170, R171, R314, R368) -/
def execDmaTransferComplete (n tag : Nat) (s : State) : Host.Outcome State Fault Refusal :=
  run (fun m =>
    match m.slotOf n with
    | none => m
    | some k =>
      match ((m.eng k).getTag tag).xfer with
      | none => m
      | some y =>
        if y.remote then
          if !y.answered then m else if y.status = 0 then m.xferOk k tag else m.xferBad k tag y.addr
        else
          match y.kind with
          | .get => m.endGet k tag y
          | .put => m.endPut k tag y
          | .push => m.endPush k tag y
          | .pop => m.endPop k tag y) s

/-! Event counters -/

/-- EVWAIT (R315) -/
def execEvwait (n : Nat) (f : RFmt) (s : State) : Host.Outcome State Fault Refusal :=
  run (fun m => m.issue n (.r 0xB3#8 f) (fun m x =>
    if !regsOk f .any .s .s .any then .fault m x.illegal
    else
      let c := (x.s f.a).toNat % 2 ^ 16
      let t := (x.s f.b).toNat
      if m.ctr c ≥ t then .next m else .wait (m.upd x (fun e => { e with wait := .ev c t })))) s

/-- EVWAIT_END: the counter has reached the threshold (R315) -/
def execEvwaitEnd (n : Nat) (s : State) : Host.Outcome State Fault Refusal :=
  run (fun m =>
    match m.slotOf n with
    | none => m
    | some k =>
      match (m.eng k).wait with
      | .ev c t => if m.ctr c ≥ t then (m.setEng k { m.eng k with wait := .none }).fallFrom k (m.eng k).pc else m
      | _ => m) s

/-- EVWAIT_EXPIRED: the wait has lasted longer than a LIMIT that is not 0 (R315) -/
def execEvwaitExpired (n : Nat) (s : State) : Host.Outcome State Fault Refusal :=
  run (fun m =>
    match m.slotOf n with
    | none => m
    | some k =>
      match (m.eng k).wait with
      | .ev c t =>
        if m.reg pgDsp 0x10C = 0 || m.ctr c ≥ t || m.ptPending k then m
        else m.kernelFault k { code := Ev.evwaitExpired, d0 := c, d1 := m.ctr c, d2 := n, d3 := some (m.eng k).queueNo, page := some pgDsp }
      | _ => m) s

/-- EVSIG (R224, R312, R313) -/
def execEvsig (n : Nat) (f : RFmt) (s : State) : Host.Outcome State Fault Refusal :=
  run (fun m => m.issue n (.r 0xB4#8 f) (fun m x =>
    if !regsOk f .any .s .s .any then .fault m x.illegal
    else
      let a := (x.s f.a).toNat
      let inc := (x.s f.b).toNat
      let far := bitAt a 32 && bitsOf a 16 16 ≠ m.modid
      if far && inc ≥ 2 ^ 24 then .fault m x.illegal
      else if m.workPending x then .hold
      else
        let m := if far && inc ≠ 0 then m.upd x (fun e => { e with remotes := e.remotes + 1 }) else m
        .next (m.signal (.evsig x.k) (a % 2 ^ 16) (bitsOf a 16 16) (bitAt a 32) inc))) s

/-- FENCE -/
def execFence (n : Nat) (f : RFmt) (s : State) : Host.Outcome State Fault Refusal :=
  run (fun m => m.issue n (.r 0xB5#8 f) (fun m x =>
    if m.workPending x then .hold
    else
      match x.e.faultyTag with
      | some t => .fault m (x.e.tagFault t)
      | none => .next m)) s

/-! Pieces -/

/-- The operands of a push or a pop: a tag word of 32 bits and a length that is a multiple of 64 from 64 to 4 MiB (R249, R603). -/
def pieceLegal (x : Iss) (f : RFmt) : Bool :=
  decide ((x.s f.b).toNat < 2 ^ 32) && (x.s f.c).toNat % 64 = 0 && decide (64 ≤ (x.s f.c).toNat) && decide ((x.s f.c).toNat ≤ 0x400000)

/-- JPUSH and TPUSH (R248, R249, R253). -/
def pushPiece (m : Mod) (x : Iss) (f : RFmt) (t : Bool) : Res :=
  tagged m x f (pieceLegal x f)
    (let off := (x.s f.a).toNat
     let tag := (x.s f.b).toNat
     let len := (x.s f.c).toNat
     match x.span off len 64 with
     | some k => .fault m k
     | none =>
       if m.ptStacks x then .hold
       else
         match m.jtTagBad t x.n tag with
         | some k => .fault m k
         | none =>
           if !m.jtRoom t x.n tag len then .fault (m.bump pgEp 0x844 1) (m.jFull t tag (64 + len))
           else
             let (m, id) := m.jtPush t x.n x.e.ctx.step tag len (f.func.toNat % 128) false false
             .next (m.startXfer x f.d.toNat { kind := .push, off, addr := 0, len, piece := 2 * id + b2n t }))

/-- JPOP and TPOP: FUNC[7] makes a keeping pop (R250, R251, R255). -/
def popPiece (m : Mod) (x : Iss) (f : RFmt) (t : Bool) : Res :=
  tagged m x f (pieceLegal x f)
    (let off := (x.s f.a).toNat
     let tag := (x.s f.b).toNat
     let len := (x.s f.c).toNat
     match x.span off len 64 with
     | some k => .fault m k
     | none =>
       if m.ptStacks x then .hold
       else
         match (if f.func.getLsbD 7 then m.jtKeep t x.n tag len else m.jtPop t x.n tag len none) with
         | .hold => .hold
         | .bad k => .fault m k
         | .ok m data ue _ => .next (m.startXfer x f.d.toNat { kind := .pop, off, addr := 0, len, data, bad := ue }))

/-- JPUSH -/
def execJpush (n : Nat) (f : RFmt) (s : State) : Host.Outcome State Fault Refusal :=
  run (fun m => m.issue n (.r 0xB8#8 f) (fun m x => pushPiece m x f false)) s

/-- JPOP -/
def execJpop (n : Nat) (f : RFmt) (s : State) : Host.Outcome State Fault Refusal :=
  run (fun m => m.issue n (.r 0xB9#8 f) (fun m x => popPiece m x f false)) s

/-- TPUSH -/
def execTpush (n : Nat) (f : RFmt) (s : State) : Host.Outcome State Fault Refusal :=
  run (fun m => m.issue n (.r 0xBA#8 f) (fun m x => pushPiece m x f true)) s

/-- TPOP -/
def execTpop (n : Nat) (f : RFmt) (s : State) : Host.Outcome State Fault Refusal :=
  run (fun m => m.issue n (.r 0xBB#8 f) (fun m x => popPiece m x f true)) s

end Sys2Proof.Machine
end

