-- ==== Sys2Proof/Machine/Dispatch.lean ====
section
/-! DEFINITION. The command dispatch: one arm for each command. -/
namespace Sys2Proof.Machine

def exec (i : Instr) (s : State) : Host.Outcome State Fault Refusal :=
  match i with
  | .add n f => Sys2Proof.Machine.execAdd n f s
  | .sub n f => Sys2Proof.Machine.execSub n f s
  | .and n f => Sys2Proof.Machine.execAnd n f s
  | .or n f => Sys2Proof.Machine.execOr n f s
  | .xor n f => Sys2Proof.Machine.execXor n f s
  | .shl n f => Sys2Proof.Machine.execShl n f s
  | .shr n f => Sys2Proof.Machine.execShr n f s
  | .sra n f => Sys2Proof.Machine.execSra n f s
  | .mul n f => Sys2Proof.Machine.execMul n f s
  | .mulhu n f => Sys2Proof.Machine.execMulhu n f s
  | .min n f => Sys2Proof.Machine.execMin n f s
  | .max n f => Sys2Proof.Machine.execMax n f s
  | .slt n f => Sys2Proof.Machine.execSlt n f s
  | .sltu n f => Sys2Proof.Machine.execSltu n f s
  | .addi n f => Sys2Proof.Machine.execAddi n f s
  | .andi n f => Sys2Proof.Machine.execAndi n f s
  | .ori n f => Sys2Proof.Machine.execOri n f s
  | .xori n f => Sys2Proof.Machine.execXori n f s
  | .shli n f => Sys2Proof.Machine.execShli n f s
  | .shri n f => Sys2Proof.Machine.execShri n f s
  | .srai n f => Sys2Proof.Machine.execSrai n f s
  | .li n f => Sys2Proof.Machine.execLi n f s
  | .lih n f => Sys2Proof.Machine.execLih n f s
  | .fadd n f => Sys2Proof.Machine.execFadd n f s
  | .fsub n f => Sys2Proof.Machine.execFsub n f s
  | .fmul n f => Sys2Proof.Machine.execFmul n f s
  | .ffma n f => Sys2Proof.Machine.execFfma n f s
  | .fmin n f => Sys2Proof.Machine.execFmin n f s
  | .fmax n f => Sys2Proof.Machine.execFmax n f s
  | .fcvtSi n f => Sys2Proof.Machine.execFcvtSi n f s
  | .fcvtIs n f => Sys2Proof.Machine.execFcvtIs n f s
  | .ld n f => Sys2Proof.Machine.execLd n f s
  | .ldw n f => Sys2Proof.Machine.execLdw n f s
  | .st n f => Sys2Proof.Machine.execSt n f s
  | .stw n f => Sys2Proof.Machine.execStw n f s
  | .br n f => Sys2Proof.Machine.execBr n f s
  | .brf n f => Sys2Proof.Machine.execBrf n f s
  | .jmp n f => Sys2Proof.Machine.execJmp n f s
  | .loop n f => Sys2Proof.Machine.execLoop n f s
  | .loopBrk n f => Sys2Proof.Machine.execLoopBrk n f s
  | .rdlc n f => Sys2Proof.Machine.execRdlc n f s
  | .kend n f => Sys2Proof.Machine.execKend n f s
  | .nop n f => Sys2Proof.Machine.execNop n f s
  | .rdfeat n f => Sys2Proof.Machine.execRdfeat n f s
  | .rdns n f => Sys2Proof.Machine.execRdns n f s
  | .setctx n f => Sys2Proof.Machine.execSetctx n f s
  | .rdctx n f => Sys2Proof.Machine.execRdctx n f s
  | .shrd n f => Sys2Proof.Machine.execShrd n f s
  | .shrdReturn n => Sys2Proof.Machine.execShrdReturn n s
  | .shset n f => Sys2Proof.Machine.execShset n f s
  | .rdtime n f => Sys2Proof.Machine.execRdtime n f s
  | .vaddF n f => Sys2Proof.Machine.execVaddF n f s
  | .vsubF n f => Sys2Proof.Machine.execVsubF n f s
  | .vmulF n f => Sys2Proof.Machine.execVmulF n f s
  | .vfmaF n f => Sys2Proof.Machine.execVfmaF n f s
  | .vminF n f => Sys2Proof.Machine.execVminF n f s
  | .vmaxF n f => Sys2Proof.Machine.execVmaxF n f s
  | .vsgnF n f => Sys2Proof.Machine.execVsgnF n f s
  | .vcmpF n f => Sys2Proof.Machine.execVcmpF n f s
  | .vaddI n f => Sys2Proof.Machine.execVaddI n f s
  | .vsubI n f => Sys2Proof.Machine.execVsubI n f s
  | .vmulI n f => Sys2Proof.Machine.execVmulI n f s
  | .vand n f => Sys2Proof.Machine.execVand n f s
  | .vor n f => Sys2Proof.Machine.execVor n f s
  | .vxor n f => Sys2Proof.Machine.execVxor n f s
  | .vshlI n f => Sys2Proof.Machine.execVshlI n f s
  | .vshrI n f => Sys2Proof.Machine.execVshrI n f s
  | .vcmpI n f => Sys2Proof.Machine.execVcmpI n f s
  | .vsel n f => Sys2Proof.Machine.execVsel n f s
  | .vbcast n f => Sys2Proof.Machine.execVbcast n f s
  | .viota n f => Sys2Proof.Machine.execViota n f s
  | .vget n f => Sys2Proof.Machine.execVget n f s
  | .vput n f => Sys2Proof.Machine.execVput n f s
  | .plog n f => Sys2Proof.Machine.execPlog n f s
  | .vld n f => Sys2Proof.Machine.execVld n f s
  | .vst n f => Sys2Proof.Machine.execVst n f s
  | .vldc n f => Sys2Proof.Machine.execVldc n f s
  | .vstc n f => Sys2Proof.Machine.execVstc n f s
  | .vredAdd n f => Sys2Proof.Machine.execVredAdd n f s
  | .vredMax n f => Sys2Proof.Machine.execVredMax n f s
  | .vredMin n f => Sys2Proof.Machine.execVredMin n f s
  | .vredAddi n f => Sys2Proof.Machine.execVredAddi n f s
  | .vredCnt n f => Sys2Proof.Machine.execVredCnt n f s
  | .vcvt n f => Sys2Proof.Machine.execVcvt n f s
  | .lsum n f => Sys2Proof.Machine.execLsum n f s
  | .lsumP n f => Sys2Proof.Machine.execLsumP n f s
  | .lsumS n f => Sys2Proof.Machine.execLsumS n f s
  | .lsumI n f => Sys2Proof.Machine.execLsumI n f s
  | .lscomb n f => Sys2Proof.Machine.execLscomb n f s
  | .lsclr n f => Sys2Proof.Machine.execLsclr n f s
  | .lsst n f => Sys2Proof.Machine.execLsst n f s
  | .lsld n f => Sys2Proof.Machine.execLsld n f s
  | .lsrd n f => Sys2Proof.Machine.execLsrd n f s
  | .vrand n f => Sys2Proof.Machine.execVrand n f s
  | .vrotc n f => Sys2Proof.Machine.execVrotc n f s
  | .optM2 n f => Sys2Proof.Machine.execOptM2 n f s
  | .optM1 n f => Sys2Proof.Machine.execOptM1 n f s
  | .optSgn n f => Sys2Proof.Machine.execOptSgn n f s
  | .mload n f => Sys2Proof.Machine.execMload n f s
  | .mloadComplete n bank => Sys2Proof.Machine.execMloadComplete n bank s
  | .mma n f => Sys2Proof.Machine.execMma n f s
  | .mmaPassComplete n => Sys2Proof.Machine.execMmaPassComplete n s
  | .mzero n f => Sys2Proof.Machine.execMzero n f s
  | .mpre n f => Sys2Proof.Machine.execMpre n f s
  | .mdrain n f chk => Sys2Proof.Machine.execMdrain n f chk s
  | .mdrainComplete n tile => Sys2Proof.Machine.execMdrainComplete n tile s
  | .dmaG n f => Sys2Proof.Machine.execDmaG n f s
  | .dmaP n f => Sys2Proof.Machine.execDmaP n f s
  | .dmaW n f => Sys2Proof.Machine.execDmaW n f s
  | .dmaTransferComplete n tag => Sys2Proof.Machine.execDmaTransferComplete n tag s
  | .evwait n f => Sys2Proof.Machine.execEvwait n f s
  | .evwaitEnd n => Sys2Proof.Machine.execEvwaitEnd n s
  | .evwaitExpired n => Sys2Proof.Machine.execEvwaitExpired n s
  | .evsig n f => Sys2Proof.Machine.execEvsig n f s
  | .fence n f => Sys2Proof.Machine.execFence n f s
  | .jpush n f => Sys2Proof.Machine.execJpush n f s
  | .jpop n f => Sys2Proof.Machine.execJpop n f s
  | .tpush n f => Sys2Proof.Machine.execTpush n f s
  | .tpop n f => Sys2Proof.Machine.execTpop n f s
  | .panelTreeCombine g => Sys2Proof.Machine.execPanelTreeCombine g s
  | .taskRead q => Sys2Proof.Machine.execTaskRead q s
  | .taskReady q idx => Sys2Proof.Machine.execTaskReady q idx s
  | .taskPlace q idx n => Sys2Proof.Machine.execTaskPlace q idx n s
  | .kernelStart n => Sys2Proof.Machine.execKernelStart n s
  | .engineClockStop p sl => Sys2Proof.Machine.execEngineClockStop p sl s
  | .taskComplete q idx => Sys2Proof.Machine.execTaskComplete q idx s
  | .queueEnable q => Sys2Proof.Machine.execQueueEnable q s
  | .queueDisable q => Sys2Proof.Machine.execQueueDisable q s
  | .queueResume q => Sys2Proof.Machine.execQueueResume q s
  | .dspDoorbell q tail => Sys2Proof.Machine.execDspDoorbell q tail s
  | .evCmdSet => Sys2Proof.Machine.execEvCmdSet s
  | .evCmdAdd => Sys2Proof.Machine.execEvCmdAdd s
  | .evValLoRead => Sys2Proof.Machine.execEvValLoRead s
  | .protectedWrite init num addr data => Sys2Proof.Machine.execProtectedWrite init num addr data s
  | .patrolScrub j off res pass => Sys2Proof.Machine.execPatrolScrub j off res pass s
  | .stackPhyLoss j cause => Sys2Proof.Machine.execStackPhyLoss j cause s
  | .seal => Sys2Proof.Machine.execSeal s
  | .sealSnap => Sys2Proof.Machine.execSealSnap s
  | .rerun => Sys2Proof.Machine.execRerun s
  | .skip => Sys2Proof.Machine.execSkip s
  | .resolveCommit => Sys2Proof.Machine.execResolveCommit s
  | .resolveRollback => Sys2Proof.Machine.execResolveRollback s
  | .abortSnap => Sys2Proof.Machine.execAbortSnap s
  | .epContribution => Sys2Proof.Machine.execEpContribution s
  | .votePhase1Complete => Sys2Proof.Machine.execVotePhase1Complete s
  | .commit => Sys2Proof.Machine.execCommit s
  | .rollback => Sys2Proof.Machine.execRollback s
  | .rollbackComplete => Sys2Proof.Machine.execRollbackComplete s
  | .stepWatchdogExpiry => Sys2Proof.Machine.execStepWatchdogExpiry s
  | .clipRedo => Sys2Proof.Machine.execClipRedo s
  | .snapshotStart => Sys2Proof.Machine.execSnapshotStart s
  | .snapshotPageDrain => Sys2Proof.Machine.execSnapshotPageDrain s
  | .snapshotComplete => Sys2Proof.Machine.execSnapshotComplete s
  | .lgShset v => Sys2Proof.Machine.execLgShset v s
  | .lgHackWrite v => Sys2Proof.Machine.execLgHackWrite v s
  | .rngKatRun wrong => Sys2Proof.Machine.execRngKatRun wrong s
  | .reduceScatter c => Sys2Proof.Machine.execReduceScatter c s
  | .allGather c => Sys2Proof.Machine.execAllGather c s
  | .allReduce c => Sys2Proof.Machine.execAllReduce c s
  | .allToAll c => Sys2Proof.Machine.execAllToAll c s
  | .broadcast c => Sys2Proof.Machine.execBroadcast c s
  | .send c => Sys2Proof.Machine.execSend c s
  | .recv c => Sys2Proof.Machine.execRecv c s
  | .permute c => Sys2Proof.Machine.execPermute c s
  | .lsumAll c => Sys2Proof.Machine.execLsumAll c s
  | .norm c => Sys2Proof.Machine.execNorm c s
  | .collOpComplete c idx => Sys2Proof.Machine.execCollOpComplete c idx s
  | .collTimeout c idx => Sys2Proof.Machine.execCollTimeout c idx s
  | .contextEnable c => Sys2Proof.Machine.execContextEnable c s
  | .contextDisable c => Sys2Proof.Machine.execContextDisable c s
  | .contextResume c => Sys2Proof.Machine.execContextResume c s
  | .ceDoorbell c tail => Sys2Proof.Machine.execCeDoorbell c tail s
  | .collData => Sys2Proof.Machine.execCollData s
  | .collGrant => Sys2Proof.Machine.execCollGrant s
  | .collReady => Sys2Proof.Machine.execCollReady s
  | .collAbort => Sys2Proof.Machine.execCollAbort s
  | .collVote => Sys2Proof.Machine.execCollVote s
  | .collVeto => Sys2Proof.Machine.execCollVeto s
  | .portTrainingStart j => Sys2Proof.Machine.execPortTrainingStart j s
  | .lanesLocked j => Sys2Proof.Machine.execLanesLocked j s
  | .trainingFailure j => Sys2Proof.Machine.execTrainingFailure j s
  | .identityFrame j f => Sys2Proof.Machine.execIdentityFrame j f s
  | .heartbeatSend j => Sys2Proof.Machine.execHeartbeatSend j s
  | .heartbeatFrame j => Sys2Proof.Machine.execHeartbeatFrame j s
  | .heartbeatLoss j => Sys2Proof.Machine.execHeartbeatLoss j s
  | .laneLockLoss j lane => Sys2Proof.Machine.execLaneLockLoss j lane s
  | .maskFrame j mask => Sys2Proof.Machine.execMaskFrame j mask s
  | .packetArrival j hdr payload => Sys2Proof.Machine.execPacketArrival j hdr payload s
  | .routerRound => Sys2Proof.Machine.execRouterRound s
  | .fabLifeDrop j k => Sys2Proof.Machine.execFabLifeDrop j k s
  | .fabGauzeDrop j => Sys2Proof.Machine.execFabGauzeDrop j s
  | .injectionWaitExpiry dst seq => Sys2Proof.Machine.execInjectionWaitExpiry dst seq s
  | .messageComplete src seq => Sys2Proof.Machine.execMessageComplete src seq s
  | .write => Sys2Proof.Machine.execWrite s
  | .readReq => Sys2Proof.Machine.execReadReq s
  | .readData => Sys2Proof.Machine.execReadData s
  | .evInc => Sys2Proof.Machine.execEvInc s
  | .ack => Sys2Proof.Machine.execAck s
  | .mgmt => Sys2Proof.Machine.execMgmt s
  | .retransmissionTimer dst seq => Sys2Proof.Machine.execRetransmissionTimer dst seq s
  | .quarantineEnd => Sys2Proof.Machine.execQuarantineEnd s
  | .rtInjectWrite v => Sys2Proof.Machine.execRtInjectWrite v s
  | .routerResetRelease linkA linkB => Sys2Proof.Machine.execRouterResetRelease linkA linkB s
  | .slotFence p sl => Sys2Proof.Machine.execSlotFence p sl s
  | .trialEntry p sl => Sys2Proof.Machine.execTrialEntry p sl s
  | .depClassLost j => Sys2Proof.Machine.execDepClassLost j s
  | .calTestDue p sl => Sys2Proof.Machine.execCalTestDue p sl s
  | .calTestEnd p sl phase want found => Sys2Proof.Machine.execCalTestEnd p sl phase want found s
  | .calMiss p sl => Sys2Proof.Machine.execCalMiss p sl s
  | .ctrlParity page off => Sys2Proof.Machine.execCtrlParity page off s
  | .depCmdFence p sl => Sys2Proof.Machine.execDepCmdFence p sl s
  | .depCmdUnfence p sl => Sys2Proof.Machine.execDepCmdUnfence p sl s
  | .depCmdTestNow p sl => Sys2Proof.Machine.execDepCmdTestNow p sl s
  | .depCmdFwdOnly => Sys2Proof.Machine.execDepCmdFwdOnly s
  | .stkCmdFence j => Sys2Proof.Machine.execStkCmdFence j s
  | .p48vInRange authA authB => Sys2Proof.Machine.execP48vInRange authA authB s
  | .p48vLoss => Sys2Proof.Machine.execP48vLoss s
  | .pwrInputFault vin => Sys2Proof.Machine.execPwrInputFault vin s
  | .powerStageFault code => Sys2Proof.Machine.execPowerStageFault code s
  | .pwrEnHigh => Sys2Proof.Machine.execPwrEnHigh s
  | .pwrEnLow => Sys2Proof.Machine.execPwrEnLow s
  | .modResetAssert => Sys2Proof.Machine.execModResetAssert s
  | .modResetRelease b => Sys2Proof.Machine.execModResetRelease b s
  | .perstNAssert => Sys2Proof.Machine.execPerstNAssert s
  | .perstNRelease => Sys2Proof.Machine.execPerstNRelease s
  | .feltResetCompute => Sys2Proof.Machine.execFeltResetCompute s
  | .feltResetRouter => Sys2Proof.Machine.execFeltResetRouter s
  | .feltResetModule b => Sys2Proof.Machine.execFeltResetModule b s
  | .feltResetCold authA authB => Sys2Proof.Machine.execFeltResetCold authA authB s
  | .feltServiceFrame t => Sys2Proof.Machine.execFeltServiceFrame t s
  | .rackTickEdge => Sys2Proof.Machine.execRackTickEdge s
  | .rackTickLoss => Sys2Proof.Machine.execRackTickLoss s
  | .clockThrottleStep watts tj sensor => Sys2Proof.Machine.execClockThrottleStep watts tj sensor s
  | .limiterAdjust watts => Sys2Proof.Machine.execLimiterAdjust watts s
  | .thermalTrip tj sensor => Sys2Proof.Machine.execThermalTrip tj sensor s
  | .mgmtAnnouncement w e => Sys2Proof.Machine.execMgmtAnnouncement w e s
  | .boardLeaderChoice => Sys2Proof.Machine.execBoardLeaderChoice s
  | .censusReport board es => Sys2Proof.Machine.execCensusReport board es s
  | .censusWaitExpiry => Sys2Proof.Machine.execCensusWaitExpiry s
  | .feltTableWrite v => Sys2Proof.Machine.execFeltTableWrite v s
  | .tableBlockMessage block tAct => Sys2Proof.Machine.execTableBlockMessage block tAct s
  | .tablesActive => Sys2Proof.Machine.execTablesActive s
  | .pageEnable init page => Sys2Proof.Machine.execPageEnable init page s
  | .pageDisable init page => Sys2Proof.Machine.execPageDisable init page s
  | .pageDisableDone page => Sys2Proof.Machine.execPageDisableDone page s
  | .pageCommit init page => Sys2Proof.Machine.execPageCommit init page s
  | .pageSoftReset init page => Sys2Proof.Machine.execPageSoftReset init page s
  | .pageSnap page => Sys2Proof.Machine.execPageSnap page s
  | .pageSnapAll => Sys2Proof.Machine.execPageSnapAll s
  | .pgErrClear page v => Sys2Proof.Machine.execPgErrClear page v s
  | .registerWrite init page off size v => Sys2Proof.Machine.execRegisterWrite init page off size v s
  | .regTimeout init page x write => Sys2Proof.Machine.execRegTimeout init page x write s
  | .mtLoRead => Sys2Proof.Machine.execMtLoRead s
  | .hiEvrAck v => Sys2Proof.Machine.execHiEvrAck v s
  | .bar2Read off len => Sys2Proof.Machine.execBar2Read off len s
  | .bar2Write off data => Sys2Proof.Machine.execBar2Write off data s
  | .functionLevelReset => Sys2Proof.Machine.execFunctionLevelReset s
  | .d3hotEntry => Sys2Proof.Machine.execD3hotEntry s
  | .busMasterDisable => Sys2Proof.Machine.execBusMasterDisable s
  | .hostLinkUp rate width flit => Sys2Proof.Machine.execHostLinkUp rate width flit s
  | .hostLinkDown => Sys2Proof.Machine.execHostLinkDown s
  | .hostAerUncorr status hdr => Sys2Proof.Machine.execHostAerUncorr status hdr s
  | .mctpReadRegister page off => Sys2Proof.Machine.execMctpReadRegister page off s
  | .mctpWriteRegister page off v => Sys2Proof.Machine.execMctpWriteRegister page off v s
  | .mctpReadTelemetry => Sys2Proof.Machine.execMctpReadTelemetry s
  | .mctpReadFeltLog count => Sys2Proof.Machine.execMctpReadFeltLog count s
  | .mctpWriteFirmware copyB image done => Sys2Proof.Machine.execMctpWriteFirmware copyB image done s
  | .mctpDebugUnlock token => Sys2Proof.Machine.execMctpDebugUnlock token s
  | .mctpReadCensus => Sys2Proof.Machine.execMctpReadCensus s
  | .timeFrame j t => Sys2Proof.Machine.execTimeFrame j t s
  | .transitHold j on => Sys2Proof.Machine.execTransitHold j on s
  | .busMasterEnable => Sys2Proof.Machine.execBusMasterEnable s
  | .d3hotExit => Sys2Proof.Machine.execD3hotExit s
  | .registerRead init page off size => Sys2Proof.Machine.execRegisterRead init page off size s
  | .engineClockStart p sl => Sys2Proof.Machine.execEngineClockStart p sl s

end Sys2Proof.Machine
end

