-- ==== Sys2Proof/Machine/Step.lean ====
section
/-! DEFINITION. One step: the command at the front of the queue runs on the rest; on an empty queue one nanosecond passes. -/
namespace Sys2Proof.Machine

/-- The step. DESIGN CHOICE for the empty queue: one nanosecond of the reference passes (Mod.idle; R200, R403, R526, R527, R536), since
no row is a tick; log entry 2. -/
def step (s : State) : Host.Outcome State Fault Refusal :=
  match s.pending with
  | [] => .next { s with core := s.core.idle }
  | c :: rest => exec c { s with pending := rest }

/-- The state with the command that a table word spells in front of the queue. No row of the table has bits, so no word spells one. -/
def State.withFetchWord (s : State) (nbits w : Nat) : State :=
  match decodeTableWord nbits w with
  | some c => { s with pending := c :: s.pending }
  | none => s

end Sys2Proof.Machine
end

