-- ==== Sys2Proof/Safety.lean ====
section
/-! DEFINITION. The words in which claims are made: what it means that a command is an engine's next instruction, that its operands name what exists, how the state after an instruction reads, and the canonical forms of the sparse maps. -/
namespace Sys2Proof.Machine

/-! The next instruction of an engine -/

/-- Slot k exists, backs logical engine n, runs a kernel and waits for nothing (R22, R197). -/
structure Mod.Running (m : Mod) (n k : Nat) : Prop where
  backs : m.slotOf n = some k
  exists_ : k < m.engs.length
  run : (m.eng k).st = .run
  free : (m.eng k).wait = .none

/-- The word at the pc of the active bank of logical engine n, which slot k backs, is the word that the command c stands for; the fetch is not
refused (R202, R227, R239, R443). -/
structure State.Next (s : State) (c : Instr) (n k : Nat) : Prop where
  running : s.core.Running n k
  inBank : (s.core.eng k).pc ≤ 8191
  good : s.core.poison.contains (imKey k (s.core.eng k).active (s.core.eng k).pc) = false
  word : EngWord.decode ((s.core.eng k).imWord (s.core.eng k).active (s.core.eng k).pc) = c.word
  listed : c.word.isSome

/-- A register field names a scalar register (R203). -/
abbrev isS (r : BitVec 6) : Prop := r.toNat < 32

/-- The register fields D, A and B, and C where it is used, name scalar registers. -/
abbrev namesDA (f : RFmt) : Prop := isS f.d ∧ isS f.a
abbrev namesDAB (f : RFmt) : Prop := isS f.d ∧ isS f.a ∧ isS f.b
abbrev namesDABC (f : RFmt) : Prop := isS f.d ∧ isS f.a ∧ isS f.b ∧ isS f.c
abbrev namesABC (f : RFmt) : Prop := isS f.a ∧ isS f.b ∧ isS f.c
abbrev immDA (f : IFmt) : Prop := isS f.d ∧ isS f.a

/-! Reading a state -/

/-- The engine of a slot. -/
def State.eng (s : State) (k : Nat) : Engine := s.core.eng k

/-- The state in which the engine of slot k alone has changed. -/
def State.withEng (s : State) (k : Nat) (e : Engine) : State := { s with core := s.core.setEng k e }

/-- The engine at its next instruction: the pc and the loops after an instruction without a taken branch (R227, R230). -/
def Engine.advance (e : Engine) : Engine := e.fallFrom e.pc

/-- The state after an instruction that writes v to scalar register d of slot k: that register, the pc and the loops change, nothing else; s0 takes
nothing (R166). -/
def State.wroteS (s : State) (k : Nat) (d : BitVec 6) (v : W64) : State :=
  s.withEng k (((s.eng k).setS d.toNat v).advance)

/-- The state after an instruction that changes only the pc and the loops. -/
def State.passed (s : State) (k : Nat) : State := s.withEng k (s.eng k).advance

/-- Binary32 in bits 31 to 0 of a scalar register. -/
def Engine.f32 (e : Engine) (r : BitVec 6) : Val := Fmt.b32.decode ((e.getS r.toNat).toNat % 2 ^ 32)

/-- One byte of the local address space. -/
def State.byte (s : State) (a : Nat) : Nat := s.core.rd a

/-- n bytes from an address as a little-endian number (R10). -/
def State.number (s : State) (a n : Nat) : Nat := ofLe ((List.range n).map (fun i => s.byte (a + i)))

/-- len bytes of the engine store of slot k from an offset may be accessed by the instruction of logical engine n at once: they lie in the store, the
offset is aligned, nothing earlier still needs them, and a read meets no uncorrectable word (R169, R206, R443). -/
structure State.Usable (s : State) (k n off len align : Nat) (wr : Bool) : Prop where
  range : off + len ≤ 2 ^ 22
  aligned : off % align = 0
  ready : s.core.storeBusy (s.core.iss k n) off len wr = false
  good : wr = true ∨ s.core.firstPoison (esAddr k off) len = none

/-- t is s after slot k stored bytes at a local address and its engine became e: those bytes read as stored, every other byte, every other engine and
every other part of the machine is as before. -/
structure State.Stored (s t : State) (k a : Nat) (bs : List Nat) (e : Engine) : Prop where
  engine : t.eng k = e
  engines : ∀ j, j ≠ k → t.eng j = s.eng j
  stored : ∀ i v, bs[i]? = some v → t.byte (a + i) = v
  others : ∀ b, b < a ∨ a + bs.length ≤ b → t.byte b = s.byte b
  rest : t = { s with core := { s.core with engs := t.core.engs, mem := t.core.mem, poison := t.core.poison } }

/-- No queue and no collective context takes its TAIL from an event counter (R290, R410). -/
def State.NoTails (s : State) : Prop := (∀ q ∈ s.core.dsp.queues, q.2.tailsrc = false) ∧ ∀ c ∈ s.core.ce.ctxs, c.2.tailsrc = false

/-- The state in which the pc of slot k alone has changed. -/
def State.jumped (s : State) (k t : Nat) : State := s.withEng k { s.eng k with pc := t }

/-- An index lies in the body of the innermost active loop, if any (R232). -/
def Engine.inBody (e : Engine) (t : Nat) : Prop := ∀ l, e.loops.head? = some l → l.first ≤ t ∧ t ≤ l.last

/-- The state after slot k has taken a kernel fault (R196); what that leaves is a claim of its own. -/
def State.faulted (s : State) (k : Nat) (f : KFault) : State := { s with core := s.core.kernelFault k f }

/-- ILLEGAL_INSTR for the word at the pc of slot k: the word in two detail words, then bank and pc (R242). -/
def State.illegal (s : State) (k : Nat) : KFault :=
  let e := s.eng k
  let w := e.imWord e.active e.pc
  { code := Ev.illegalInstr, d0 := w.toNat / 2 ^ 32, d1 := w.toNat % 2 ^ 32, d2 := e.active * 32768 + e.pc }

/-! Vector registers -/

/-- A lane is active: PEN is 0, or the bit of the predicate register is 1 (R205). -/
def Engine.laneOn (e : Engine) (f : RFmt) (i : Nat) : Bool := f.pen = 0#1 || (e.getP f.p.toNat).getLsbD i

/-- Lane i of a vector register. -/
def Engine.lane (e : Engine) (r : BitVec 6) (i : Nat) : W32 := (e.getV r.toNat).getD i 0#32

/-- A vector destination: active lanes take new values; inactive ones keep theirs, or become 0 where PZ is 1 (R205). -/
def Engine.lanes (e : Engine) (f : RFmt) (new : Nat → W32) : List W32 :=
  (e.getV f.d.toNat).zipIdx.map (fun (old, i) => if e.laneOn f i then new i else if f.pz = 1#1 then 0#32 else old)

/-- With PEN 0, P and PZ are 0 (R205). -/
abbrev predOk (f : RFmt) : Prop := f.pen = 1#1 ∨ (f.p = 0#3 ∧ f.pz = 0#1)

/-- The state after a vector result: register vD by the lane rule, the pc and the loops. -/
def State.wroteV (s : State) (k : Nat) (f : RFmt) (new : Nat → W32) : State :=
  s.withEng k (((s.eng k).setV f.d.toNat ((s.eng k).lanes f new)).advance)

/-- A predicate destination: active lanes take their new values; inactive ones keep theirs, or become 0 where PZ is 1 (R205). -/
def Engine.preds (e : Engine) (f : RFmt) (new : Nat → Bool) (i : Nat) : Bool :=
  if e.laneOn f i then new i else if f.pz = 1#1 then false else (e.getP f.d.toNat).getLsbD i

/-- The state after a predicate result q in pD. -/
def State.wroteP (s : State) (k : Nat) (f : RFmt) (q : BitVec 128) : State := s.withEng k (((s.eng k).setP f.d.toNat q).advance)

/-- A predicate register names one of eight. -/
abbrev isP (r : BitVec 6) : Prop := r.toNat < 8

/-- A long accumulator's number. -/
abbrev isLa (r : BitVec 6) : Prop := r.toNat < 4

/-! Instructions with several accesses, or with reports -/

/-- Every access of a list may be made by the instruction of logical engine n at once (R169, R206, R443). -/
structure State.Accepts (s : State) (k n : Nat) (l : List Acc) : Prop where
  range : ∀ a ∈ l, a.off + a.n ≤ 2 ^ 22 ∧ a.off % a.align = 0
  ready : ∀ a ∈ l, a.n = 0 ∨ s.core.storeBusy (s.core.iss k n) a.off a.n a.wr = false
  good : ∀ a ∈ l, a.wr = true ∨ s.core.firstPoison (esAddr k a.off) a.n = none

/-- m with what reporting changes taken from r: events, the event ring and its signals, page errors, counters, the Felt log, FAULT_N. -/
def Mod.reported (m r : Mod) : Mod :=
  { m with events := r.events, felt := r.felt, pins := r.pins, host := r.host, out := r.out, pages := r.pages, regs := r.regs }

/-- Between m and m' lies only reporting. -/
def Mod.Quiet (m m' : Mod) : Prop := m' = m.reported m'

/-- From s to t only the engine of slot k, which became e, the bytes under the writes of l in its store, their poison, and reports have changed. -/
structure State.Effect (s t : State) (k : Nat) (l : List Acc) (e : Engine) : Prop where
  engine : t.eng k = e
  engines : ∀ j, j ≠ k → t.eng j = s.eng j
  others : ∀ b, (∀ a ∈ l, a.wr = true → b < esAddr k a.off ∨ esAddr k a.off + a.n ≤ b) → t.byte b = s.byte b
  rest : t = { s with core := { s.core.reported t.core with engs := t.core.engs, mem := t.core.mem, poison := t.core.poison } }

/-- The store of slot k after writes of offset and byte in order: the last write to an offset counts, a byte under none is as before. -/
def State.Wrote (s t : State) (k : Nat) (ws : List (Nat × Nat)) : Prop :=
  ∀ a, a < 2 ^ 22 → t.byte (esAddr k a) = ((ws.reverse.find? (fun w => w.1 = a)).map (fun w => w.2 % 256)).getD (s.byte (esAddr k a))

/-- D1 finds no difference in a tile that slot k drains: checking is off, or no line differs (R192, R193). -/
def State.Checked (s : State) (k : Nat) (t : Tile) : Prop := s.core.flag (pgSlot k) 0x104 0 = true → t.mismatch (s.core.fld pgCal 0x104 2 3) none = none

/-- An engine has reported a record: NONFINITE stays once a record with a NaN or an infinity has set it (R95). -/
def Engine.reported (e : Engine) (r : NumRec) : Bool := e.nonfinite || decide (r.nan ≠ 0) || decide (r.inf ≠ 0)

/-! The host at the registers -/

/-- The host reaches a page and the page's own block answers (R41, R551, R568, R577). -/
structure State.Open (s : State) (pg : Nat) : Prop where
  awake : s.core.host.d3 = false
  answers : s.core.reachable pg = true
  own : s.core.shadow pg = false

/-- The page is also enabled and no disable of it is in progress, so that its command fields act (R317, R438, R560). -/
structure State.Acts (s : State) (pg : Nat) : Prop where
  here : s.Open pg
  enabled : (s.core.page pg).enabled = true
  steady : (s.core.page pg).busy = false

/-- A record of an event has been added, newest first, with code, page and detail words. -/
def State.raised (s t : State) (pg code d0 d1 d2 d3 : Nat) : Prop :=
  ∃ e ∈ t.core.events.take (t.core.events.length - s.core.events.length), e.page = pg ∧ e.code = code ∧ e.time = s.core.time
    ∧ e.d0 = d0 % 2 ^ 32 ∧ e.d1 = d1 % 2 ^ 32 ∧ e.d2 = d2 % 2 ^ 32 ∧ e.d3 = d3 % 2 ^ 32

/-! Instructions that use the scale ledger -/

/-- What opening an entry for an operation gives (R147, R148): the entry, whether the operation opened it for the step, the reason of a seeding, and
whether its margin is reported. -/
structure LedgerSeen where
  entry : LEntry
  first : Bool
  why : Nat
  bad : Bool

/-- The operation seeded the entry (R148, R155). -/
def LedgerSeen.seeded (x : LedgerSeen) : Bool := x.first && x.entry.seeding

/-- Ledger entry idx exists, its 128 bytes can be read and written at once, it serves the target t, and x is what opening it for a step gives (R145 to
R148, R325, R326, R331). -/
structure State.LedgerOpens (s : State) (idx step : Nat) (t : Fmt) (x : LedgerSeen) : Prop where
  listed : idx < s.core.reg pgLog 0x208
  backed : s.core.ledgerAddr idx + 128 ≤ s.core.memTop ∧ s.core.memTop ≤ 0x28000000000
  clean : s.core.firstPoison (s.core.ledgerAddr idx) 128 = none
  held : ∀ i, i < 128 → s.core.inFailed (s.core.ledgerAddr idx + i) = false
  writable : ∀ i, i < 128 → let pg := (s.core.ledgerAddr idx + i) / 65536
    s.core.isProt pg = true → (s.core.ep.st = .opened ∨ s.core.ep.st = .voting) ∧ (s.core.pageSt pg).eslot.isSome = true ∧ (s.core.pageSt pg).s ≠ .pending
  serves : (LEntry.ofBytes (s.core.bytesAt (s.core.ledgerAddr idx) 128)).tgt % 32 = t.code + (if t = .zf8u then 16 else 0)
  opens : ledgerOpen (LEntry.ofBytes (s.core.bytesAt (s.core.ledgerAddr idx) 128)) step t = .ok x.entry x.first x.why x.bad

/-- The items that an operation passes to the input log for an entry: its seeding, and its overridden blocks where SL_CTRL says so (R154, R155, R482). -/
def LedgerSeen.seedItems (x : LedgerSeen) (idx opid : Nat) : List LogItem := if x.seeded then [.seed idx x.why opid] else []
def State.ovrItems (s : State) (idx ovrs opid : Nat) (task : Option (Nat × Nat)) : List LogItem :=
  if ovrs ≠ 0 ∧ s.core.flag pgLog 0x20C 0 = true then [.ovr idx ovrs opid task] else []

/-- The items of the input log's buffer after more items in a step (R483). -/
def State.logged (s : State) (l : List LogItem) : List LogItem :=
  if s.core.logOn = true ∧ s.core.ep.isOpen = true then l.foldl addItem s.core.lg.items else s.core.lg.items

/-- From s to t only the engine of slot k, which became e, the bytes under the writes of l in its store and of the ledger entries idxs, their poison, the
items of the input log, and reports have changed. -/
structure State.LedgerEffect (s t : State) (k : Nat) (l : List Acc) (idxs : List Nat) (items : List LogItem) (e : Engine) : Prop where
  engine : t.eng k = e
  engines : ∀ j, j ≠ k → t.eng j = s.eng j
  others : ∀ b, (∀ a ∈ l, a.wr = true → b < esAddr k a.off ∨ esAddr k a.off + a.n ≤ b) →
    (∀ i ∈ idxs, b < s.core.ledgerAddr i ∨ s.core.ledgerAddr i + 128 ≤ b) → t.byte b = s.byte b
  rest : t = { s with core := { s.core.reported t.core with engs := t.core.engs, mem := t.core.mem, poison := t.core.poison,
                                                            lg := { s.core.lg with items } } }

/-- What an operation leaves in a ledger entry that it opened as x and folded its blocks into as e, ovrs of them overridden, and what it tells
(R149, R150, R154, R155). -/
structure State.LedgerUsed (s t : State) (k idx step opid : Nat) (x : LedgerSeen) (e : LEntry) (ovrs : Nat) : Prop where
  entry : ∀ i, i < 128 →
    t.byte (s.core.ledgerAddr idx + i) = (((LEntry.ofBytes (x.entry.bytes.map (· % 256))).fold e ovrs step).bytes).getD i 0 % 256
  seeding : x.seeded = true → s.raised t (pgSlot k) Ev.ledgerSeeded idx x.why opid step
  margin : x.bad = true → s.raised t (pgSlot k) Ev.scaleMarginBad idx x.entry.margin opid step
  override : ovrs ≠ 0 → s.core.flag pgLog 0x20C 1 = true → s.raised t (pgSlot k) Ev.scaleOverride idx ovrs opid step

/-! Drains -/

/-- A store's bytes after writes of offset and byte in order. -/
def readAfter (rd : Nat → Nat) (ws : List (Nat × Nat)) (a : Nat) : Nat :=
  ((ws.reverse.find? (fun w => w.1 = a)).map (fun w => w.2 % 256)).getD (rd a)

/-- The writes of rows of a drain after earlier writes: each row's bytes as the writes before it left the store (R90, R134, R219). -/
def DrainPlan.rowsWrites (p : DrainPlan) (rd : Nat → Nat) (before : List (Nat × Nat)) (rows : List DrainRow) : List (Nat × Nat) :=
  rows.zipIdx.foldl (fun ws x => ws ++ p.rowWrites (readAfter rd ws) x.2 x.1) before

/-- The stages of a drain in the engine's own drain unit from D5 on, over the store rd and with the entry of its ledger, if any (R134, R157, R161, R185 to
R190): each row's stored bits and codes, and what the record and the ledger take. -/
def DrainPlan.staged (p : DrainPlan) (rd : Nat → Nat) (seed : W64) (entry : Option LEntry) : List DrainRow × QAcc :=
  let d := p.d
  let q : QSpec := { tgt := p.tgt, smode := d.smode, mode := p.mode, strict := d.strict, key := ⟨seed, p.t.opid, p.t.step⟩,
                     tensor := if d.smode = 1 then rd d.scale else 0x60, step := p.t.step }
  let g := if d.readsG then readOperand rd ((Fmt.ofCode d.gfmt).getD .b32) d.gsmode d.gaddr d.gscale p.w else .none
  let index := fun r c => if c < 128 then p.t.elemIndex r c else (p.pair.getD p.t).elemIndex r (c - 128)
  let cnt := { NumRec.start p.tgt 0xF p.mode d.grad d.strict p.t.opid p.t.step with nonref := p.t.pre.isSome && decide (p.t.g ≤ p.t.chunkBase) }
  drainRows { desc := d, fmt := p.tgt, spec := q, seed, g, smooth := if d.smooth then (List.range p.w).map (fun c => rd (d.smoothOff + d.ocol + c)) else [] }
    0 { cnt, entry } ((p.rows rd).zip ((List.range 128).map (fun r => (List.range p.w).map (index r))))

/-- Nothing waits for a kernel boundary of any slot (R458, R465). -/
def State.NoBoundary (s : State) : Prop := ∀ d ∈ s.core.dep.slots, d.fencePend = none ∧ d.trialPend = false ∧ d.testWaits = false ∧ d.st ≠ .trial

/-- A message that waited whole has been taken, and an ACK with a status is on its way to its source (R367, R390). -/
def State.Answered (s t : State) (x : InMsg) (status : Nat) : Prop :=
  t.core.rt.whole = s.core.rt.whole.erase x ∧ ∃ a ∈ t.core.rt.msgs, a.type = 5 ∧ a.dst = x.src ∧ a.slice = x.slice ∧ a.arg = x.seq + status * 2 ^ 32

/-- A message that belongs to neither a task nor an operation (R368). -/
def Owner.isPlain : Owner → Bool
  | .coll _ _ => false
  | .dma _ _ => true
  | .evsig _ => true
  | .task _ _ => false
  | .none => true

/-- An address lies outside the page-state entries of a list of pages and the directory bytes of the slots that they hold (R329). -/
def Mod.OutsidePool (m : Mod) (l : List (Nat × PageSt)) (a : Nat) : Prop :=
  (∀ e ∈ l, ∀ j, protIndex m.ranges e.1 = some j → let p := m.reg64 pgEp 0x120 0x124 + 8 * j
    a < p ∨ p + 8 ≤ a)
  ∧ ∀ x ∈ slotsOf l, let p := m.reg64 pgEp 0x114 0x118 + 8 * x
    a < p ∨ p + 8 ≤ a

/-! Canonical forms -/

/-- Module memory, engine stores and panel stores are listed in canonical form. -/
def Mod.memWf (m : Mod) : Bool := spWf 0#8 m.mem

/-- The invariant of claims about memory. -/
def State.memWf (s : State) : Prop := s.core.memWf = true

/-- Every sparse map of the module is in its canonical form: memory, queues, event counters, contexts, page headers, sequence numbers, the
MSI-X table, registers. -/
structure State.Wf (s : State) : Prop where
  mem : s.memWf
  queues : spWf {} s.core.dsp.queues = true
  counters : spWf 0 s.core.dsp.counters = true
  contexts : spWf {} s.core.ce.ctxs = true
  pages : spWf {} s.core.pages = true
  sequences : spWf 0 s.core.rt.sendSeq = true
  vectors : spWf 0 s.core.host.bar4 = true
  registers : s.core.regs.Pairwise (fun a b => a.1 < b.1) ∧ ∀ e ∈ s.core.regs, e.2 ≠ regReset e.1

/-- What the module has a fixed number of: logical engines, slots, ports, stacks, classifications. -/
structure State.Sized (s : State) : Prop where
  logical : s.core.lmap.length = 288
  engines : s.core.engs.length = 312
  slots : s.core.dep.slots.length = 312
  fuses : s.core.fuse.length = 312
  ports : s.core.ports.length = 19
  stackCount : s.core.stks.length = 32
  classes : s.core.dep.cls.length = 16

end Sys2Proof.Machine
end

