-- ==== Sys2Proof/Certificates/Slice0/Obligations.lean ====
section
/-! DEFINITION. The claims about the machine, each a proposition that the spec's rules give. Where a claim gives the whole next state by an equation, everything that the right-hand side does not change stays as it was: that is its frame. -/
open Sys2Proof Sys2Proof.Machine

/-! Scalar instructions -/

/-- R221, integer register forms: sD takes the result, nothing else changes but the pc and the loops. R221, immediate forms: IMM is sign-extended to 64 bits (R204); a shift count is IMM[5:0] with the bits above zero; LIH takes IMM[19:0]. R221, binary32 forms: RNE, FFMA with one rounding, results in bits [31:0] with the bits above zero; the conversions clamp and take NaN to 0. -/
def Obligations.ScalarArithmetic : Prop :=
  (
    (
      ∀ (s : State) (n k : Nat) (f : RFmt), namesDAB f →
        let a := (s.eng k).getS f.a.toNat
        let b := (s.eng k).getS f.b.toNat
        let gives := fun (c : Instr) (v : W64) => s.Next c n k → exec c s = .next (s.wroteS k f.d v)
        gives (.add n f) (a + b) ∧ gives (.sub n f) (a - b) ∧ gives (.and n f) (a &&& b) ∧ gives (.or n f) (a ||| b) ∧ gives (.xor n f) (a ^^^ b)
        ∧ gives (.shl n f) (a <<< (b.toNat % 64)) ∧ gives (.shr n f) (a >>> (b.toNat % 64)) ∧ gives (.sra n f) (a.sshiftRight (b.toNat % 64))
        ∧ gives (.mul n f) (a * b) ∧ gives (.mulhu n f) (BitVec.ofNat 64 (a.toNat * b.toNat / 2 ^ 64))
        ∧ gives (.min n f) (if a.toInt < b.toInt then a else b) ∧ gives (.max n f) (if a.toInt < b.toInt then b else a)
        ∧ gives (.slt n f) (if a.toInt < b.toInt then 1#64 else 0#64) ∧ gives (.sltu n f) (if a.toNat < b.toNat then 1#64 else 0#64))
    ∧ (
      ∀ (s : State) (n k : Nat) (f : IFmt), immDA f →
        let a := (s.eng k).getS f.a.toNat
        let imm := f.imm.signExtend 64
        let gives := fun (c : Instr) (v : W64) => s.Next c n k → exec c s = .next (s.wroteS k f.d v)
        gives (.addi n f) (a + imm) ∧ gives (.andi n f) (a &&& imm) ∧ gives (.ori n f) (a ||| imm) ∧ gives (.xori n f) (a ^^^ imm)
        ∧ (f.imm.toNat < 64 → gives (.shli n f) (a <<< f.imm.toNat) ∧ gives (.shri n f) (a >>> f.imm.toNat) ∧ gives (.srai n f) (a.sshiftRight f.imm.toNat))
        ∧ gives (.li n f) imm
        ∧ (f.imm.toNat < 2 ^ 20 → gives (.lih n f) (BitVec.ofNat 64 (a.toNat % 2 ^ 44 + f.imm.toNat * 2 ^ 44)))))
  ∧ (
    ∀ (s : State) (n k : Nat) (f : RFmt),
      let a := (s.eng k).f32 f.a
      let b := (s.eng k).f32 f.b
      let c := (s.eng k).f32 f.c
      let gives := fun (i : Instr) (v : W64) => s.Next i n k → exec i s = .next (s.wroteS k f.d v)
      (namesDAB f → gives (.fadd n f) (b32s (addB32 .rne a b)) ∧ gives (.fsub n f) (b32s (addB32 .rne a b.neg)) ∧ gives (.fmul n f) (b32s (mulB32 .rne a b))
        ∧ gives (.fmin n f) (b32s (a.minimum b)) ∧ gives (.fmax n f) (b32s (a.maximum b)))
      ∧ (namesDABC f → gives (.ffma n f) (b32s (fmaB32 .rne a b c)))
      ∧ (namesDA f → gives (.fcvtSi n f) (fcvtSi64 a) ∧ gives (.fcvtIs n f) (b32s (roundB32 .rne 0 (Val.ofInt ((s.eng k).getS f.a.toNat).toInt)))))

/-- R203, R242: a scalar instruction with a register field that names no scalar register takes the kernel fault ILLEGAL_INSTR; FFMA reads C as well. R166: s0 reads as 0 and a write to it is discarded: any instruction whose next state is a scalar result in s0 only passes. No other register of R165 is fixed: it reads
as it was last written. -/
def Obligations.ScalarRegisters : Prop :=
  (
    ∀ (s : State) (n k : Nat) (f : RFmt), s.core.ptPending k = false →
      let bad := fun (c : Instr) => s.Next c n k → exec c s = .next (s.faulted k (s.illegal k))
      (¬ namesDAB f → bad (.add n f) ∧ bad (.sub n f) ∧ bad (.and n f) ∧ bad (.or n f) ∧ bad (.xor n f) ∧ bad (.shl n f) ∧ bad (.shr n f) ∧ bad (.sra n f)
        ∧ bad (.mul n f) ∧ bad (.mulhu n f) ∧ bad (.min n f) ∧ bad (.max n f) ∧ bad (.slt n f) ∧ bad (.sltu n f) ∧ bad (.fadd n f) ∧ bad (.fsub n f)
        ∧ bad (.fmul n f) ∧ bad (.fmin n f) ∧ bad (.fmax n f))
      ∧ (¬ namesDABC f → bad (.ffma n f)) ∧ (¬ namesDA f → bad (.fcvtSi n f) ∧ bad (.fcvtIs n f)))
  ∧ (
    ∀ (s : State) (n k : Nat) (f : RFmt), namesDAB f → f.d = 0#6 → f.b = 0#6 →
      (s.Next (.add n f) n k → exec (.add n f) s = .next (s.passed k))
      ∧ ∀ (r : BitVec 6), isS r → ∀ (g : RFmt), g.d = r → g.a = f.a → g.b = 0#6 → s.Next (.add n g) n k →
          exec (.add n g) s = .next (s.wroteS k r ((s.eng k).getS f.a.toNat)))
  ∧ (
    ∀ (e : Engine) (r : Nat) (x : W64), e.getS 0 = 0#64 ∧ e.setS 0 x = e
      ∧ (0 < r → r < e.s.length → (e.setS r x).getS r = x)
      ∧ (r < e.v.length → ∀ y, (e.setV r y).getV r = y) ∧ (r < e.p.length → ∀ y, (e.setP r y).getP r = y) ∧ (r < e.la.length → ∀ y, (e.setLa r y).getLa r = y)
      ∧ (r < e.acc.length → ∀ y, (e.setTile r y).getTile r = y) ∧ (r < e.tags.length → ∀ y, (e.setTag r y).getTag r = y)
      ∧ (r < e.sb.length → ∀ y, (({ e with sb := e.sb.set r y } : Engine).sb.getD r {}) = y))

/-- R221, R206: LD and LDW load little-endian bytes at sA + IMM in 64-bit arithmetic, zero-extended; memory is untouched. R221, R206: ST stores the 8 bytes of sD and STW its low 4 at sA + IMM; no register changes but the pc and the loops, and no other byte. -/
def Obligations.ScalarMemory : Prop :=
  (
    ∀ (s : State) (n k : Nat) (f : IFmt), immDA f →
      let off := ((s.eng k).getS f.a.toNat + f.imm.signExtend 64).toNat
      (s.Usable k n off 8 8 false → s.Next (.ld n f) n k → exec (.ld n f) s = .next (s.wroteS k f.d (BitVec.ofNat 64 (s.number (esAddr k off) 8))))
      ∧ (s.Usable k n off 4 4 false → s.Next (.ldw n f) n k → exec (.ldw n f) s = .next (s.wroteS k f.d (BitVec.ofNat 64 (s.number (esAddr k off) 4)))))
  ∧ (
    ∀ (s : State) (n k : Nat) (f : IFmt), immDA f → s.memWf →
      let off := ((s.eng k).getS f.a.toNat + f.imm.signExtend 64).toNat
      let d := ((s.eng k).getS f.d.toNat).toNat
      (s.Usable k n off 8 8 true → s.Next (.st n f) n k → ∃ t, exec (.st n f) s = .next t
        ∧ s.Stored t k (esAddr k off) ((List.range 8).map (fun i => d / 256 ^ i % 256)) (s.eng k).advance)
      ∧ (s.Usable k n off 4 4 true → s.Next (.stw n f) n k → ∃ t, exec (.stw n f) s = .next t
        ∧ s.Stored t k (esAddr k off) ((List.range 4).map (fun i => d / 256 ^ i % 256)) (s.eng k).advance))

/-- R206: a scalar access beyond the 4 MiB store takes ESTORE_RANGE, and one inside it that is not aligned ESTORE_ALIGN. That an access which is both
takes the first is the model's reading, log entry 17.
It rests on the model's readings of log entry 17. -/
def Obligations.ScalarAccessFaults : Prop :=
  ∀ (s : State) (n k : Nat) (f : IFmt), immDA f → s.core.ptPending k = false →
    let e := s.eng k
    let off := (e.getS f.a.toNat + f.imm.signExtend 64).toNat
    let range : KFault := { code := Ev.estoreRange, d0 := off % 2 ^ 32, d1 := off / 2 ^ 32, d2 := e.pc }
    let align := fun (w : Nat) => ({ code := Ev.estoreAlign, d0 := off, d1 := w, d2 := e.pc } : KFault)
    ∀ cw ∈ [(Instr.ld n f, 8), (Instr.ldw n f, 4), (Instr.st n f, 8), (Instr.stw n f, 4)], s.Next cw.1 n k →
      (2 ^ 22 < off + cw.2 → exec cw.1 s = .next (s.faulted k range))
      ∧ (off + cw.2 ≤ 2 ^ 22 → off % cw.2 ≠ 0 → exec cw.1 s = .next (s.faulted k (align cw.2)))

/-! Control flow -/

/-- R225 to R227: BR, BRF and JMP. A branch that is not taken passes; a taken one goes to pc + OFF, which must lie in the bank and in the body of the
innermost active loop. R227, R232: a taken JMP out of the bank takes IM_PC_RANGE; one out of the innermost loop's body takes LOOP_ESCAPE. -/
def Obligations.Branches : Prop :=
  (
    ∀ (s : State) (n k : Nat) (f : BFmt), f.r1 = 0#2 → f.r2 = 0#6 →
      let e := s.eng k
      let a := e.getS f.a.toNat
      let b := e.getS f.b.toNat
      let x := e.f32 f.a
      let y := e.f32 f.b
      let nan := x.isNan || y.isNan
      let table := [(0, a == b), (1, a != b), (2, decide (a.toInt < b.toInt)), (3, decide (b.toInt ≤ a.toInt)), (4, decide (a.toNat < b.toNat)),
        (5, decide (b.toNat ≤ a.toNat)), (6, (a &&& b) != 0#64), (7, (a &&& b) == 0#64), (8, !nan && x.cmp y == .eq), (9, Val.lt x y), (10, Val.le x y), (11, nan)]
      let goes := fun (c : Instr) (taken : Bool) => s.Next c n k → (taken = false → exec c s = .next (s.passed k))
        ∧ (taken = true → ∀ t : Nat, (e.pc : Int) + f.off.toInt = t → t ≤ 8191 → e.inBody t → exec c s = .next (s.jumped k t))
      (isS f.a → isS f.b → ∀ p ∈ table, f.cond.toNat = p.1 → goes (.br n f) p.2)
      ∧ (f.a = 0#6 → f.b = 0#6 → s.core.statPending (s.core.iss k n) = false →
          (f.cond = 0#4 → goes (.brf n f) ((e.nstat &&& f.mask) != 0#16)) ∧ (f.cond = 1#4 → goes (.brf n f) ((e.nstat &&& f.mask) == 0#16)))
      ∧ (f.a = 0#6 → f.b = 0#6 → f.cond = 0#4 → goes (.jmp n f) true))
  ∧ (
    ∀ (s : State) (n k : Nat) (f : BFmt), f.r1 = 0#2 → f.r2 = 0#6 → f.a = 0#6 → f.b = 0#6 → f.cond = 0#4 → s.core.ptPending k = false → s.Next (.jmp n f) n k →
      let e := s.eng k
      ((e.pc : Int) + f.off.toInt < 0 ∨ 8191 < (e.pc : Int) + f.off.toInt →
        exec (.jmp n f) s = .next (s.faulted k { code := Ev.imPcRange, d0 := e.pc, d1 := (((e.pc : Int) + f.off.toInt) % 2 ^ 32).toNat, d2 := e.active }))
      ∧ (∀ t l, (e.pc : Int) + f.off.toInt = (t : Nat) → t ≤ 8191 → e.loops.head? = some l → t < l.first ∨ l.last < t →
          exec (.jmp n f) s = .next (s.faulted k { code := Ev.loopEscape, d0 := e.pc, d1 := t, d2 := l.first + l.last * 65536 })))

/-- R228 to R231: LOOP latches bits [31:0] of sA and activates the body pc + 1 to pc + OFF, or with a count of 0 goes on after the body; LOOP.BRK leaves
the innermost loop; RDLC reads an iteration index, all ones where no loop is active at the depth. R230: at the last index of a loop the next instruction is the body's first with the index raised, while passes remain; else the loop is left and
the loop around it is looked at. -/
def Obligations.Loops : Prop :=
  (
    ∀ (s : State) (n k : Nat),
      let e := s.eng k
      (∀ (f : BFmt) (len : Nat), f.r1 = 0#2 → f.r2 = 0#6 → isS f.a → f.off.toInt = len → 0 < len → e.pc + len ≤ 8191 → e.loops.length < 4 →
        (∀ o, e.loops.head? = some o → e.pc + len ≤ o.last) → s.Next (.loop n f) n k →
        let count := (e.getS f.a.toNat).toNat % 2 ^ 32
        (count ≠ 0 → exec (.loop n f) s = .next (s.withEng k { e with loops := ⟨e.pc + 1, e.pc + len, count, 0⟩ :: e.loops, pc := e.pc + 1 }))
        ∧ (count = 0 → exec (.loop n f) s = .next (s.withEng k (e.fallFrom (e.pc + len)))))
      ∧ (∀ (f : BFmt) (l : HwLoop) (t : List HwLoop), f.r1 = 0#2 → f.r2 = 0#6 → isS f.a → f.cond.toNat < 3 → e.loops = l :: t → s.Next (.loopBrk n f) n k →
          let leave := f.cond = 0#4 ∨ (f.cond = 1#4 ∧ e.getS f.a.toNat ≠ 0#64) ∨ (f.cond = 2#4 ∧ e.getS f.a.toNat = 0#64)
          (leave → exec (.loopBrk n f) s = .next (s.withEng k (({ e with loops := t } : Engine).fallFrom l.last)))
          ∧ (¬ leave → exec (.loopBrk n f) s = .next (s.passed k)))
      ∧ (∀ (f : RFmt), isS f.d → s.Next (.rdlc n f) n k →
          (∀ l, e.loops.reverse[f.func.toNat % 4]? = some l → exec (.rdlc n f) s = .next (s.wroteS k f.d (BitVec.ofNat 64 l.lc)))
          ∧ (e.loops.length ≤ f.func.toNat % 4 → exec (.rdlc n f) s = .next (s.wroteS k f.d (BitVec.allOnes 64)))))
  ∧ (
    ∀ (s : State) (n k : Nat) (f : RFmt), s.Next (.nop n f) n k →
      let e := s.eng k
      (∀ l t, e.loops = l :: t → l.last = e.pc → l.lc + 1 < l.n →
        exec (.nop n f) s = .next (s.withEng k { e with pc := l.first, loops := { l with lc := l.lc + 1 } :: t }))
      ∧ (∀ l, e.loops = [l] → l.last = e.pc → l.n ≤ l.lc + 1 → exec (.nop n f) s = .next (s.withEng k { e with pc := e.pc + 1, loops := [] }))
      ∧ (∀ l u t, e.loops = l :: u :: t → l.last = e.pc → l.n ≤ l.lc + 1 → u.last = e.pc → u.lc + 1 < u.n →
          exec (.nop n f) s = .next (s.withEng k { e with pc := u.first, loops := { u with lc := u.lc + 1 } :: t }))
      ∧ ((∀ l, e.loops.head? = some l → l.last ≠ e.pc) → exec (.nop n f) s = .next (s.withEng k { e with pc := e.pc + 1 })))

/-- R207, R211, R221, R241, R526: NOP, RDFEAT of the fixed features, RDNS, SETCTX, RDCTX and RDTIME: the register or context that each
writes takes the named value, and nothing else changes but the pc and the loops. -/
def Obligations.StatusReads : Prop :=
  ∀ (s : State) (n k : Nat) (f : RFmt) (i : IFmt),
    let e := s.eng k
    (s.Next (.nop n f) n k → exec (.nop n f) s = .next (s.passed k))
    ∧ (isS i.d → s.Next (.rdfeat n i) n k → ∀ p ∈ [(0, 0x0000000000080100), (1, 0x0080020800800080), (2, 0x0000100420084080), (3, 0x0000C00000001000),
        (4, 0x0000040200010000), (5, 0x000000007F3F0FFF), (6, 0x00000000007F03FF), (9, 0), (4095, 0)], i.imm.toNat = p.1 →
        exec (.rdfeat n i) s = .next (s.wroteS k i.d (BitVec.ofNat 64 p.2)))
    ∧ (isS f.d → s.core.statPending (s.core.iss k n) = false → s.Next (.rdns n f) n k →
        exec (.rdns n f) s = .next (s.wroteS k f.d (BitVec.ofNat 64 e.nstat.toNat)))
    ∧ (isS f.a → isS f.b → (e.getS f.b.toNat).toNat < 2 ^ 44 → s.Next (.setctx n f) n k → exec (.setctx n f) s = .next (s.withEng k
        ({ e with ctx := ⟨(e.getS f.a.toNat).toNat / 2 ^ 32, (e.getS f.a.toNat).toNat % 2 ^ 32, (e.getS f.b.toNat).toNat⟩ } : Engine).advance))
    ∧ (isS f.d → s.Next (.rdctx n f) n k → (f.func.getLsbD 0 = true → exec (.rdctx n f) s = .next (s.wroteS k f.d (BitVec.ofNat 64 e.ctx.ebase)))
        ∧ (f.func.getLsbD 0 = false → exec (.rdctx n f) s = .next (s.wroteS k f.d (BitVec.ofNat 64 (e.ctx.opid * 2 ^ 32 + e.ctx.step)))))
    ∧ (isS f.d → s.Next (.rdtime n f) n k → exec (.rdtime n f) s = .next (s.wroteS k f.d (BitVec.ofNat 64 s.core.time)))

/-- R234, R235: SHRD reads the module's word of the step, or returns the published slice-wide word with bit 32 set, at once or through SHRD_RETURN;
SHSET ORs bits [31:0] of sA into the word of an open step that has not contributed.
It rests on the model's readings of log entry 18. -/
def Obligations.StepHealth : Prop :=
  ∀ (s : State) (n k : Nat) (f : RFmt),
    let e := s.eng k
    let p := s.core.ep
    (isS f.d → p.step = e.ctx.step → s.Next (.shrd n f) n k →
      (f.func.getLsbD 0 = false → exec (.shrd n f) s = .next (s.wroteS k f.d (BitVec.ofNat 64 p.sh.toNat)))
      ∧ (f.func.getLsbD 0 = true → p.published = true → exec (.shrd n f) s = .next (s.wroteS k f.d (BitVec.ofNat 64 (2 ^ 32 + p.shSlice.toNat))))
      ∧ (f.func.getLsbD 0 = true → p.published = false → exec (.shrd n f) s = .next (s.withEng k { e with wait := .sh f.d.toNat e.ctx.step none })))
    ∧ (∀ d st w, s.core.slotOf n = some k → k < s.core.engs.length → e.wait = .sh d st (some w) →
        exec (.shrdReturn n) s = .next (s.withEng k ((({ e with wait := .none } : Engine).setS d (BitVec.ofNat 64 (2 ^ 32 + w))).fallFrom e.pc)))
    ∧ (isS f.a → p.step = e.ctx.step → p.isOpen = true → p.contributed = false → p.published = false → s.Next (.shset n f) n k →
        exec (.shset n f) s = .next { s.passed k with core := { (s.passed k).core with ep := { p with sh := p.sh ||| (e.getS f.a.toNat).setWidth 32 } } })

/-- R233, R184: KEND, once no earlier work, transfer or remote increment is left and no tag holds a fault, ends the kernel: the engine is IDLE with its
tiles closed, its banks empty and no loop active, and keeps its registers.
It rests on the model's readings of log entry 10. -/
def Obligations.KernelEnd : Prop :=
  ∀ (s : State) (n k : Nat) (f : RFmt), s.Next (.kend n f) n k →
    let e := s.eng k
    e.jobs = [] → s.core.ptGroups = [] → e.moving = false → e.remotes = 0 → e.remoteRefused = none → (∀ t ∈ e.tags, t.fault = false) →
    ∃ t, exec (.kend n f) s = .next t
      ∧ t.eng k = { e with st := .idle, acc := List.replicate 8 none, sb := List.replicate 2 {}, loops := [], wait := .none, jobs := [], task := none,
                           remotes := 0, remoteRefused := none }
      ∧ (∀ j, j ≠ k → t.eng j = s.eng j) ∧ (∀ a, t.byte a = s.byte a)
      ∧ (∀ q i u, e.task = some (q, i) → s.core.task? q i = some u →
          ∃ v, t.core.task? q i = some v ∧ v.ended = u.ended ++ [s.core.logicalOf k] ∧ v.tEnd = s.core.time ∧ v.faultCode = u.faultCode)

/-- R196, R184: what taking a kernel fault saves and leaves. The fault registers hold code, tag, bank and pc; the engine is IDLE with tiles closed, banks
empty, no loop; its registers, every other engine and all of memory are as before; dispatch has the task's first fault.
It rests on the model's readings of log entry 10. -/
def Obligations.KernelFault : Prop :=
  ∀ (s : State) (k : Nat) (f : KFault), k < s.core.engs.length →
    let e := s.eng k
    e.st = .run → e.jobs = [] → s.core.ptGroups = [] → (∀ q i u, e.task = some (q, i) → s.core.task? q i = some u → u.desc.stepBound = false) →
    let t := s.faulted k f
    t.eng k = { e with st := .idle, acc := List.replicate 8 none, sb := List.replicate 2 {}, loops := [], wait := .none, jobs := [], task := none,
                       remotes := 0, remoteRefused := none, faultCode := f.code, faultTag := f.tag, faultBank := e.active, faultPc := f.pc.getD e.pc,
                       faultAddr := f.addr.getD e.faultAddr }
    ∧ (∀ j, j ≠ k → t.eng j = s.eng j) ∧ (∀ a, t.byte a = s.byte a) ∧ t.core.ep = s.core.ep ∧ t.core.modid = s.core.modid ∧ t.core.lmap = s.core.lmap
    ∧ (∀ q i u, e.task = some (q, i) → s.core.task? q i = some u → u.faultCode = 0 →
        ∃ v, t.core.task? q i = some v ∧ v.faultCode = f.code ∧ v.faultEng = s.core.logicalOf k ∧ v.ended = u.ended ++ [s.core.logicalOf k])

/-! Vector instructions -/

/-- R205, R221: the binary32 lane instructions in the rounding modes that vector arithmetic allows, VMIN.F, VMAX.F, and VSGN.F, which touches the sign bit
alone. Inactive lanes follow the lane rule; no other register changes. -/
def Obligations.VectorFloat : Prop :=
  ∀ (s : State) (n k : Nat) (f : RFmt), predOk f →
    let e := s.eng k
    let a := fun i => b32 (e.lane f.a i)
    let b := fun i => b32 (e.lane f.b i)
    let c := fun i => b32 (e.lane f.c i)
    let gives := fun (i : Instr) (v : Nat → W32) => s.Next i n k → exec i s = .next (s.wroteV k f v)
    (∀ p ∈ [(0, RMode.rne), (1, .rtz), (2, .rup), (3, .rdn), (4, .rod)], f.mod.toNat % 8 = p.1 →
      gives (.vaddF n f) (fun i => b32w (addB32 p.2 (a i) (b i))) ∧ gives (.vsubF n f) (fun i => b32w (addB32 p.2 (a i) (b i).neg))
      ∧ gives (.vmulF n f) (fun i => b32w (mulB32 p.2 (a i) (b i))) ∧ gives (.vfmaF n f) (fun i => b32w (fmaB32 p.2 (a i) (b i) (c i))))
    ∧ gives (.vminF n f) (fun i => b32w ((a i).minimum (b i))) ∧ gives (.vmaxF n f) (fun i => b32w ((a i).maximum (b i)))
    ∧ (f.func.toNat = 0 → gives (.vsgnF n f) (fun i => e.lane f.a i &&& 0x7FFFFFFF#32))
    ∧ (f.func.toNat = 1 → gives (.vsgnF n f) (fun i => e.lane f.a i ^^^ 0x80000000#32))
    ∧ (f.func.toNat = 2 → gives (.vsgnF n f) (fun i => (e.lane f.a i &&& 0x7FFFFFFF#32) ||| (e.lane f.b i &&& 0x80000000#32)))

/-- R205, R221: the integer lane instructions, wrapping at 32 bits; shift counts are taken modulo 32. -/
def Obligations.VectorInteger : Prop :=
  ∀ (s : State) (n k : Nat) (f : RFmt), predOk f →
    let a := (s.eng k).lane f.a
    let b := (s.eng k).lane f.b
    let gives := fun (i : Instr) (v : Nat → W32) => s.Next i n k → exec i s = .next (s.wroteV k f v)
    gives (.vaddI n f) (fun i => a i + b i) ∧ gives (.vsubI n f) (fun i => a i - b i) ∧ gives (.vmulI n f) (fun i => a i * b i)
    ∧ gives (.vand n f) (fun i => a i &&& b i) ∧ gives (.vor n f) (fun i => a i ||| b i) ∧ gives (.vxor n f) (fun i => a i ^^^ b i)
    ∧ gives (.vshlI n f) (fun i => a i <<< ((b i).toNat % 32))
    ∧ (f.func.getLsbD 0 = false → gives (.vshrI n f) (fun i => a i >>> ((b i).toNat % 32)))
    ∧ (f.func.getLsbD 0 = true → gives (.vshrI n f) (fun i => (a i).sshiftRight ((b i).toNat % 32)))

/-- R205, R221: VCMP.F, VCMP.I and PLOG write bit i of pD for each active lane i and nothing else. -/
def Obligations.VectorPredicates : Prop :=
  ∀ (s : State) (n k : Nat) (f : RFmt), predOk f → isP f.d →
    let e := s.eng k
    let a := e.lane f.a
    let b := e.lane f.b
    let p := fun i => (e.getP f.a.toNat).getLsbD i
    let q := fun i => (e.getP f.b.toNat).getLsbD i
    let nan := fun i => (b32 (a i)).isNan || (b32 (b i)).isNan
    let gives := fun (i : Instr) (func : Nat) (v : Nat → Bool) => f.func.toNat = func → s.Next i n k →
      ∃ w : BitVec 128, exec i s = .next (s.wroteP k f w) ∧ ∀ j, j < 128 → w.getLsbD j = e.preds f v j
    gives (.vcmpF n f) 0 (fun i => !nan i && (b32 (a i)).cmp (b32 (b i)) == .eq) ∧ gives (.vcmpF n f) 1 (fun i => Val.lt (b32 (a i)) (b32 (b i)))
    ∧ gives (.vcmpF n f) 2 (fun i => Val.le (b32 (a i)) (b32 (b i))) ∧ gives (.vcmpF n f) 3 nan
    ∧ gives (.vcmpI n f) 0 (fun i => a i == b i) ∧ gives (.vcmpI n f) 1 (fun i => decide ((a i).toInt < (b i).toInt))
    ∧ gives (.vcmpI n f) 2 (fun i => decide ((a i).toNat < (b i).toNat))
    ∧ (isP f.a → isP f.b → gives (.plog n f) 0 (fun i => p i && q i) ∧ gives (.plog n f) 1 (fun i => p i || q i) ∧ gives (.plog n f) 2 (fun i => p i ^^ q i)
      ∧ gives (.plog n f) 3 (fun i => p i && !q i) ∧ gives (.plog n f) 4 (fun _ => true) ∧ gives (.plog n f) 5 (fun _ => false))

/-- R205, R221: VSEL, VBCAST, VIOTA, VGET and VPUT. In VPUT with PEN 1 the named lane follows the lane rule too, which is the model's reading (log
entry 19). -/
def Obligations.VectorMoves : Prop :=
  ∀ (s : State) (n k : Nat) (f : RFmt),
    let e := s.eng k
    let x := (e.getS f.a.toNat).setWidth 32
    (f.pen = 1#1 → f.pz = 0#1 → s.Next (.vsel n f) n k → exec (.vsel n f) s = .next (s.withEng k
        ((e.setV f.d.toNat ((e.getV f.a.toNat).zipIdx.map (fun (w, i) => if (e.getP f.p.toNat).getLsbD i then w else e.lane f.b i))).advance)))
    ∧ (predOk f → isS f.a → (s.Next (.vbcast n f) n k → exec (.vbcast n f) s = .next (s.wroteV k f (fun _ => x)))
      ∧ (s.Next (.viota n f) n k → exec (.viota n f) s = .next (s.wroteV k f (fun i => x + BitVec.ofNat 32 i)))
      ∧ (s.Next (.vput n f) n k → exec (.vput n f) s = .next (s.wroteV k f (fun i => if i = f.func.toNat % 128 then x else e.lane f.d i))))
    ∧ (predOk f → isS f.d → s.Next (.vget n f) n k → exec (.vget n f) s = .next (s.wroteS k f.d ((e.lane f.a (f.func.toNat % 128)).setWidth 64)))

/-- R121, R221: the reductions over the active lanes: VRED.ADD in the pairwise order by lane index with +0 for an inactive lane, VRED.MAX and VRED.MIN
from -Inf and +Inf, VRED.ADDI as a sum of signed lanes, VRED.CNT by class. -/
def Obligations.VectorReductions : Prop :=
  ∀ (s : State) (n k : Nat) (f : RFmt), predOk f → isS f.d →
    let e := s.eng k
    let all := (e.getV f.a.toNat).zipIdx
    let on := (all.filter (fun p => e.laneOn f p.2)).map (·.1)
    let gives := fun (i : Instr) (v : W64) => s.Next i n k → exec i s = .next (s.wroteS k f.d v)
    let counts := fun (func : Nat) (cls : Val → Bool) => f.func.toNat = func →
      gives (.vredCnt n f) (BitVec.ofNat 64 (on.filter (fun w => cls (b32 w))).length)
    gives (.vredAdd n f) (b32s (treeRoot (addB32 .rne) 7 (all.map (fun p => if e.laneOn f p.2 then b32 p.1 else Val.zero))))
    ∧ gives (.vredMax n f) (b32s ((on.map b32).foldl Val.maximum (.inf true))) ∧ gives (.vredMin n f) (b32s ((on.map b32).foldl Val.minimum (.inf false)))
    ∧ gives (.vredAddi n f) (BitVec.ofInt 64 (on.map BitVec.toInt).sum)
    ∧ counts 0 Val.isNan ∧ counts 1 Val.isInf ∧ counts 2 (fun v => !v.isFinite) ∧ counts 3 (fun v => !v.isZero)

/-- R52, R206, R221: VLD and VST move 512 bytes as 128 little-endian lanes; VLDC converts 128 elements of a format to binary32 (R63, R142), scaled by the codes of any scale
mode but the reserved one, and sets NSTAT from the active ones. Nothing else changes but the pc and the loops. -/
def Obligations.VectorLoads : Prop :=
  ∀ (s : State) (n k : Nat),
    let e := s.eng k
    (∀ (f : IFmt), isS f.a → let off := (e.getS f.a.toNat + f.imm.signExtend 64).toNat
      (s.Usable k n off 512 64 false → s.Next (.vld n f) n k → exec (.vld n f) s = .next (s.withEng k
        ((e.setV f.d.toNat ((List.range 128).map (fun i => BitVec.ofNat 32 (s.number (esAddr k (off + 4 * i)) 4)))).advance)))
      ∧ (s.Usable k n off 512 64 true → s.memWf → s.Next (.vst n f) n k → ∃ t, exec (.vst n f) s = .next t
        ∧ s.Stored t k (esAddr k off) ((e.getV f.d.toNat).map (fun w => (List.range 4).map (fun i => w.toNat / 256 ^ i % 256))).flatten e.advance))
    ∧ (∀ (f : RFmt) (T : Fmt), predOk f → isS f.a → isS f.c → Fmt.ofCode (f.mod.toNat % 16) (f.mod.getLsbD 4) = some T → T ≠ .zm1 →
      let smode := f.mod.toNat / 2 ^ 10 % 8
      let off := (e.getS f.a.toNat).toNat
      let so := (e.getS f.c.toNat).toNat % 2 ^ 22
      let x := fun i => applyCode (T.decode (readElem (s.core.es k) T off i)) (scaleCode (s.core.es k) smode so 0 0 i)
      let y := fun i => Fmt.b32.convert .rne false 0 (x i)
      let counts := ((List.range 128).filter (e.laneOn f)).foldl (fun (r : NumRec) i => r.note (x i) (y i).2) {}
      smode ≠ 7 → s.Accepts k n ({ off, n := T.bytes 128, align := 64 } :: scaleAcc smode so false) → s.Next (.vldc n f) n k →
      exec (.vldc n f) s = .next (s.withEng k
        ({ e.setV f.d.toNat (e.lanes f (fun i => BitVec.ofNat 32 (y i).1)) with nstat := counts.nstat false false, nsSeq := e.nsSeq + 1 } : Engine).advance))

/-- R130, R131, R140, R205, R208, R210: VSTC stores active lanes in a format under a scale code, with the codes of its blocks and a record, and advances
EBASE by 128; inactive elements keep their bytes. In LEDGER mode the entry is opened, folded and reported as R145 to R155 say. R82, R205, R208, R210: VCVT converts each active lane, advances EBASE by 128 and, unless the conversion is exact, writes a record where C names one.
It rests on the model's readings of log entries 20 and 21. -/
def Obligations.VectorConversions : Prop :=
  (
    ∀ (s : State) (n k : Nat) (f : RFmt) (T : Fmt) (mode : RMode) (x : Option LedgerSeen), predOk f → isS f.d → isS f.a → isS f.c →
      Fmt.ofCode (f.mod.toNat % 16) (f.mod.getLsbD 4) = some T → convKind .b32 T = some .rounding →
      convMode T (f.mod.toNat / 2 ^ 7 % 8) (f.mod.getLsbD 6) = some mode →
      let e := s.eng k
      let smode := f.mod.toNat / 2 ^ 10 % 8
      let off := (e.getS f.a.toNat).toNat
      let so := (e.getS f.c.toNat).toNat % 2 ^ 22
      let idx := (e.getS f.c.toNat).toNat / 2 ^ 32 % 2 ^ 16
      let rec? := if f.d = 0#6 then [] else [({ off := (e.getS f.d.toNat).toNat, n := 32, align := 32, wr := true } : Acc)]
      let accs := ({ off, n := T.bytes 128, align := 64, wr := true } : Acc) :: (scaleAcc smode so true ++ rec?)
      let z := if smode = 1 then s.core.es k so else 0x60
      let draw := fun i => if mode = .sr then DrawKey.draw ⟨e.seed, e.ctx.opid, e.ctx.step⟩ (e.ctx.ebase + i) 0 else 0
      let spec : QSpec := { tgt := T, smode, mode, strict := f.mod.getLsbD 5, key := ⟨e.seed, e.ctx.opid, e.ctx.step⟩, tensor := z, step := e.ctx.step }
      let out := quantRow spec { cnt := NumRec.start T 0 mode (f.mod.getLsbD 6) (f.mod.getLsbD 5) e.ctx.opid e.ctx.step, entry := x.map (·.entry) }
        ((List.range 128).map (fun i => ⟨b32 (e.lane f.b i), e.ctx.ebase + i, e.laneOn f i⟩))
      let r := out.2.cnt
      let items := (x.map (·.seedItems idx e.ctx.opid)).getD [] ++ s.ovrItems idx out.2.ovrs e.ctx.opid e.task
      smodeAllowed T smode = true → (if smode = 3 then ∃ y, x = some y ∧ s.LedgerOpens idx e.ctx.step T y ∧ s.core.lg.held + 2 ≤ itemCap else x = none) →
      s.memWf → s.Accepts k n accs → e.ctx.ebase + 127 < 2 ^ 44 → (mode = .sr → s.core.on pgRng = true) →
      (smode = 1 → s.core.es k so ≠ 0xFF) → s.Next (.vstc n f) n k →
      ∃ t, exec (.vstc n f) s = .next t
        ∧ s.LedgerEffect t k accs (if smode = 3 then [idx] else []) (s.logged items)
            ({ e with nstat := r.nstat (out.2.ovrs ≠ 0) (x.any LedgerSeen.seeded), nsSeq := e.nsSeq + 1, nonfinite := e.reported r,
                      ctx := { e.ctx with ebase := (e.ctx.ebase + 128) % 2 ^ 44 } } : Engine).advance
        ∧ (∀ y, x = some y → s.LedgerUsed t k idx e.ctx.step e.ctx.opid y (out.2.entry.getD y.entry) out.2.ovrs)
        ∧ s.Wrote t k (packElems (s.core.es k) T off 0 (out.1.map (·.bits)).flatten
            ++ (if (blockSize smode).isSome then out.1.zipIdx.filterMap (fun p => p.1.code.map (fun c => (so + p.2, c))) else [])
            ++ (if f.d = 0#6 then [] else pairsAt (e.getS f.d.toNat).toNat r.bytes))
        ∧ (smode ≤ 1 → 8 ≤ T.bits → (∀ a ∈ rec?, a.off + 32 ≤ off ∨ off + T.bytes 128 ≤ a.off) → ∀ i, i < 128 → t.number (esAddr k (off + i * (T.bits / 8))) (T.bits / 8) =
            if e.laneOn f i then (T.convert mode (f.mod.getLsbD 5) (draw i) ((b32 (e.lane f.b i)).scale (96 - (z : Int)))).1 % 2 ^ T.bits
            else s.number (esAddr k (off + i * (T.bits / 8))) (T.bits / 8)))
  ∧ (
    ∀ (s : State) (n k : Nat) (f : RFmt) (S T : Fmt) (kind : ConvKind) (mode : RMode), predOk f → isS f.c → f.mod.getLsbD 11 = false →
      Fmt.ofCode (f.mod.toNat / 2 ^ 12 % 16) (f.mod.getLsbD 10) = some S → Fmt.ofCode (f.mod.toNat % 16) (f.mod.getLsbD 4) = some T →
      vcvtKind S T = some kind →
      let code := f.mod.toNat / 2 ^ 7 % 8
      (match kind with
        | .exact => mode = .rne ∧ (RMode.ofCode code).isSome
        | .zeOverflow => RMode.ofCode code = some mode
        | _ => convMode T code (f.mod.getLsbD 6) = some mode) →
      let e := s.eng k
      let sr := mode = .sr ∧ kind ≠ .zeOverflow
      let accs := if kind = .exact ∨ f.c = 0#6 then [] else [({ off := (e.getS f.c.toNat).toNat, n := 32, align := 32, wr := true } : Acc)]
      let draw := fun i => if sr then DrawKey.draw ⟨e.seed, e.ctx.opid, e.ctx.step⟩ (e.ctx.ebase + i) 0 else 0
      let y := fun i => T.convert mode (f.mod.getLsbD 5) (draw i) (S.decode (e.lane f.a i).toNat)
      let r := ((List.range 128).filter (e.laneOn f)).foldl (fun (c : NumRec) i => c.note (S.decode (e.lane f.a i).toNat) (y i).2)
        (NumRec.start T S.code mode (f.mod.getLsbD 6) (f.mod.getLsbD 5) e.ctx.opid e.ctx.step)
      s.memWf → s.Accepts k n accs → e.ctx.ebase + 127 < 2 ^ 44 → (sr → s.core.on pgRng = true) → s.Next (.vcvt n f) n k →
      ∃ t, exec (.vcvt n f) s = .next t
        ∧ s.Effect t k accs ({ e.setV f.d.toNat (e.lanes f (fun i => BitVec.ofNat 32 (y i).1)) with
            nstat := if kind = .exact then 0#16 else r.nstat false false, nsSeq := e.nsSeq + 1,
            nonfinite := if kind = .exact then e.nonfinite else e.reported r, ctx := { e.ctx with ebase := (e.ctx.ebase + 128) % 2 ^ 44 } } : Engine).advance
        ∧ s.Wrote t k (if kind = .exact ∨ f.c = 0#6 then [] else pairsAt (e.getS f.c.toNat).toNat r.bytes))

/-! Long accumulators, random values, rotations -/

/-- R122 to R125, R127: the instructions on long accumulators, once no drain still folds into them: each active lane is one exact term; LSST and LSLD use the
96-byte form. -/
def Obligations.LongSums : Prop :=
  ∀ (s : State) (n k : Nat) (f : RFmt), predOk f → isLa f.d → s.core.laBusy (s.core.iss k n) f.d.toNat = false →
    let e := s.eng k
    let la := e.getLa f.d.toNat
    let on := (List.range 128).filter (e.laneOn f)
    let gives := fun (i : Instr) (v : LongAcc) => s.Next i n k → exec i s = .next (s.withEng k ((e.setLa f.d.toNat v).advance))
    let off := (e.getS f.a.toNat).toNat
    gives (.lsum n f) ((on.map (fun i => b32 (e.lane f.a i))).foldl LongAcc.addVal la)
    ∧ gives (.lsumP n f) ((on.map (fun i => (b32 (e.lane f.a i)).mul (b32 (e.lane f.b i)))).foldl LongAcc.addVal la)
    ∧ (isS f.a → gives (.lsumS n f) (la.addVal (e.f32 f.a)) ∧ gives (.lsumI n f) (la.addVal (Val.ofInt (e.getS f.a.toNat).toInt)))
    ∧ (isLa f.a → s.core.laBusy (s.core.iss k n) f.a.toNat = false → gives (.lscomb n f) (la.combine (e.getLa f.a.toNat)))
    ∧ gives (.lsclr n f) {}
    ∧ (isS f.a → s.Usable k n off 96 32 false → gives (.lsld n f) (LongAcc.ofBytes ((List.range 96).map (fun i => s.byte (esAddr k (off + i))))))
    ∧ (isS f.a → s.Usable k n off 96 32 true → s.memWf → s.Next (.lsst n f) n k → ∃ t, exec (.lsst n f) s = .next t
        ∧ s.Stored t k (esAddr k off) la.bytes e.advance)

/-- R124, R125: two long accumulators combine by adding V (in 640 bits, R122) and N (which stops at 2^63, where OVF is set) and joining the flags; the order of
terms does not matter to a long accumulator, and terms summed apart and combined give the same sum as terms summed together. -/
def Obligations.LongSumOrder : Prop :=
  (∀ a b : LongAcc, let c := a.combine b
    c.v = wrap640 (a.v + b.v) ∧ c.n = min (a.n + b.n) (2 ^ 63) ∧ c.nan = (a.nan || b.nan) ∧ c.pinf = (a.pinf || b.pinf) ∧ c.ninf = (a.ninf || b.ninf)
      ∧ c.ovf = (a.ovf || b.ovf || decide (2 ^ 63 ≤ a.n + b.n)))
  ∧ (∀ (a : LongAcc) (l r : List Val), l.Perm r → l.foldl LongAcc.addVal a = r.foldl LongAcc.addVal a)
  ∧ ∀ (a : LongAcc) (l r : List Val), a.n ≤ 2 ^ 63 → (a.n = 2 ^ 63 → a.ovf = true) → wrap640 a.v = a.v →
      (l.foldl LongAcc.addVal a).combine (r.foldl LongAcc.addVal {}) = (l ++ r).foldl LongAcc.addVal a

/-- R126: LSRD rounds the value of a long accumulator to odd in ZA and then once into the target, counts one element and may write a record. -/
def Obligations.LongSumReadout : Prop :=
  ∀ (s : State) (n k : Nat) (f : RFmt) (T : Fmt) (mode : RMode), predOk f → isS f.d → isLa f.a → isS f.c → T ∈ [Fmt.b32, .zf24, .zf16] →
    Fmt.ofCode (f.mod.toNat % 16) false = some T → RMode.ofCode (f.mod.toNat / 2 ^ 7 % 8) = some mode → s.core.laBusy (s.core.iss k n) f.a.toNat = false →
    let e := s.eng k
    let v := roundZA .rod 0 (e.getLa f.a.toNat).value
    let draw := if mode = .sr then DrawKey.draw ⟨e.seed, e.ctx.opid, e.ctx.step⟩ e.ctx.ebase 0 else 0
    let y := T.convert mode false draw v
    let r := (NumRec.start T 15 mode false false e.ctx.opid e.ctx.step).note v y.2
    let accs := if f.c = 0#6 then [] else [({ off := (e.getS f.c.toNat).toNat, n := 32, align := 32, wr := true } : Acc)]
    s.memWf → s.Accepts k n accs → e.ctx.ebase < 2 ^ 44 → (mode = .sr → s.core.on pgRng = true) → s.Next (.lsrd n f) n k →
    ∃ t nf, exec (.lsrd n f) s = .next t
      ∧ s.Effect t k accs ({ e.setS f.d.toNat (BitVec.ofNat 64 y.1) with nstat := r.nstat false false, nsSeq := e.nsSeq + 1, nonfinite := nf } : Engine).advance
      ∧ (f.c ≠ 0#6 → ∀ i x, r.bytes[i]? = some x → t.byte (esAddr k ((e.getS f.c.toNat).toNat + i)) = x % 256)

/-- R158, R222, R260, R262: VRAND fills active lanes with one half of ZCG-64 under the job seed, s-register stream and step and advances EBASE by 128; VROTC
rotates the columns of active lanes of 2^RLOG stored rows in place.
It rests on the model's readings of log entry 39. -/
def Obligations.RandomAndRotation : Prop :=
  ∀ (s : State) (n k : Nat) (f : RFmt), predOk f → isS f.a → s.core.on pgRng = true →
    let e := s.eng k
    (e.ctx.ebase + 127 < 2 ^ 44 → s.Next (.vrand n f) n k →
      let g := fun i => (zcg64 e.seed ((e.getS f.a.toNat).toNat % 2 ^ 32) (e.ctx.ebase + i) e.ctx.step).toNat
      exec (.vrand n f) s = .next (s.withEng k
        ({ e.setV f.d.toNat (e.lanes f (fun i => BitVec.ofNat 32 (if f.func.getLsbD 0 then g i / 2 ^ 32 else g i))) with
            ctx := { e.ctx with ebase := (e.ctx.ebase + 128) % 2 ^ 44 } } : Engine).advance))
    ∧ ∀ (T : Fmt) (mode : RMode), isS f.d → isS f.b → isS f.c → T ∈ [Fmt.b32, .zf16] →
      Fmt.ofCode (f.mod.toNat / 2 ^ 4 % 16) false = some T → RMode.ofCode (f.mod.toNat / 2 ^ 8 % 8) = some mode →
      let rlog := f.mod.toNat % 16
      let off := (e.getS f.a.toNat).toNat
      let stride := f.func.toNat * 64
      let w := T.bytes 128
      let rows := fun (wr : Bool) => (List.range (2 ^ rlog)).map (fun r => ({ off := off + r * stride, n := w, align := 64, wr } : Acc))
      let rec? := if f.c = 0#6 then [] else [({ off := (e.getS f.c.toNat).toNat, n := 32, align := 32, wr := true } : Acc)]
      let col := fun j => rotateRun e.seed ((e.getS f.b.toNat).toNat % 2 ^ 32) ((e.getS f.b.toNat).toNat / 2 ^ 32) rlog (e.getS f.d.toNat).toNat
        (columnVals (s.core.es k) T off stride (2 ^ rlog) j)
      let draw := fun r j => if mode = .sr then DrawKey.draw ⟨e.seed, e.ctx.opid, e.ctx.step⟩ (e.ctx.ebase + 128 * r + j) 0 else 0
      5 ≤ rlog → rlog ≤ 8 → (e.getS f.d.toNat).toNat % 2 ^ rlog = 0 → s.memWf → s.Accepts k n (rows false ++ rows true ++ rec?) →
      (mode = .sr → e.ctx.ebase + 128 * 2 ^ rlog ≤ 2 ^ 44) → s.Next (.vrotc n f) n k →
      ∃ t ns nf, exec (.vrotc n f) s = .next t
        ∧ s.Effect t k (rows true ++ rec?) ({ e with nstat := ns, nsSeq := e.nsSeq + 1, nonfinite := nf } : Engine).advance
        ∧ (w ≤ stride → (∀ a ∈ rec?, a.off + 32 ≤ off ∨ off + 2 ^ rlog * stride ≤ a.off) → ∀ r j, r < 2 ^ rlog → j < 128 →
            let at' := esAddr k (off + r * stride + j * (T.bits / 8))
            t.number at' (T.bits / 8) = if e.laneOn f j then (T.convert mode false (draw r j) ((col j).getD r .nan)).1 % 2 ^ T.bits else s.number at' (T.bits / 8))

/-! The optimiser -/

/-- R267 to R273: an OPT instruction whose descriptor is accepted and whose clip factor is at hand runs: it writes only the arrays, scale bytes and records of
its outputs, sets NSTAT and advances EBASE by 128 for each row; a LEDGER output uses its entry (R147, R149). Where outputs share no bytes with each other,
and with an input only by taking its very place, each row's codes are those of the blocks as the row finds them, each element is the output's value of R270
converted once under its row's code, and each record counts its output's elements. R71: a reserved rounding code takes FMT_UNSUPPORTED.
It rests on the model's readings of log entries 20, 40 and 91. -/
def Obligations.OptimiserRuns : Prop :=
  ∀ (s : State) (n k : Nat) (f : RFmt) (c : Instr) (op : OptOp), (c, op) ∈ [(Instr.optM2 n f, OptOp.m2), (.optM1 n f, .m1), (.optSgn n f, .sgn)] → isS f.a →
    let e := s.eng k
    let at' := (e.getS f.a.toNat).toNat
    let b := (List.range 128).map (fun i => s.byte (esAddr k (at' + i)))
    let d := OptDesc.ofBytes b
    let outs := optOuts op d
    let sr := outs.any (fun o => o.mode = .sr)
    s.memWf → s.Usable k n at' 128 64 false → optDescBad op b = none → s.Next c n k →
    (∀ r, d.rReserved = some r → s.core.ptPending k = false → exec c s = .next (s.faulted k { code := Ev.fmtUnsupported, d0 := 3, d1 := r, d2 := e.ctx.opid }))
    ∧ (d.rReserved = none → d.smodeG ≠ 7 → s.core.clipUse d e.ctx.step = .wait → exec c s = .next (s.withEng k { e with wait := .clip e.ctx.step at' }))
    ∧ ∀ (v : Val) (x : OptOut → LedgerSeen), d.rReserved = none → d.smodeG ≠ 7 → s.core.clipUse d e.ctx.step = .val v → s.Accepts k n (optAccs op d) →
      (sr = true → s.core.on pgRng = true ∧ e.ctx.ebase + 128 * d.rows ≤ 2 ^ 44) →
      (∀ o ∈ outs, o.smode = 3 → s.LedgerOpens o.led e.ctx.step o.tgt (x o) ∧ s.core.lg.held + 8 ≤ itemCap) →
      ((outs.filter (fun o => o.smode = 3)).map OptOut.led).Nodup →
      let key : DrawKey := ⟨e.seed, e.ctx.opid, e.ctx.step⟩
      let val := fun (o : OptOut) (i : Nat) =>
        let w := optParam (s.core.es k) op d v i
        match outs.head? with
        | some m => optOutVal o w (Fmt.zf24.convert m.mode false (if m.mode = .sr then key.draw (e.ctx.ebase + i) 0 else 0) w.w).1
        | none => optOutVal o w 0
      let block := fun (o : OptOut) (acc : QAcc) (r : Nat) => quantBlock { tgt := o.tgt, smode := o.smode, mode := .rne, strict := o.strict, key, step := e.ctx.step }
        acc ((List.range 128).map (fun j => { x := val o (128 * r + j), e := 0 }))
      let before := fun (o : OptOut) (r : Nat) => (List.range r).foldl (fun acc j => (block o acc j).2)
        { cnt := {}, entry := if o.smode = 3 then some (x o).entry else none }
      let code := fun (o : OptOut) (r : Nat) => if o.slot = 0 then 0x60 else (block o (before o r) r).1.code.getD 0x60
      let y := fun (o : OptOut) (i : Nat) => o.tgt.convert o.mode o.strict (if o.mode = .sr then key.draw (e.ctx.ebase + i) o.slot else 0)
        ((val o i).scale (96 - (code o (i / 128) : Int)))
      let count := fun (o : OptOut) => (List.range (128 * d.rows)).foldl (fun (c : NumRec) i => c.note (val o i) (y o i).2)
        (NumRec.start o.tgt o.src o.mode false o.strict e.ctx.opid e.ctx.step)
      let led := outs.filter (fun o => o.smode = 3)
      let apart := fun (a b : Acc) => a.off + a.n ≤ b.off ∨ b.off + b.n ≤ a.off
      ∃ t ns nf items, exec c s = .next t
        ∧ s.LedgerEffect t k (optAccs op d) (led.map OptOut.led) items
            ({ e with nstat := ns, nsSeq := e.nsSeq + 1, nonfinite := nf, ctx := { e.ctx with ebase := (e.ctx.ebase + 128 * d.rows) % 2 ^ 44 } } : Engine).advance
        ∧ (((optAccs op d).filter (·.wr)).Pairwise apart →
            (∀ a ∈ optAccs op d, ∀ b ∈ optAccs op d, a.wr = false → b.wr = true → (a.off = b.off ∧ a.n = b.n) ∨ apart a b) →
            (∀ o ∈ outs, ∀ i, i < 128 * d.rows → readElem (t.core.es k) o.tgt o.off i = (y o i).1 % 2 ^ o.tgt.bits)
            ∧ (∀ o ∈ outs, o.slot ≠ 0 → ∀ r, r < d.rows → t.core.es k (o.sc + r) = code o r % 256)
            ∧ (d.recNone = false → ∀ i o, outs[i]? = some o → ∀ j, j < 32 → t.core.es k (d.recOff + 32 * i + j) = (count o).bytes.getD j 0 % 256)
            ∧ ns = nstatJoin (outs.map count) (outs.any (fun o => (before o d.rows).ovrs ≠ 0)) (led.any (fun o => (x o).seeded))
            ∧ nf = outs.foldl (fun b o => b || decide ((count o).nan ≠ 0) || decide ((count o).inf ≠ 0)) e.nonfinite
            ∧ items = s.logged (led.flatMap (fun o => (x o).seedItems o.led e.ctx.opid)
                ++ led.flatMap (fun o => s.ovrItems o.led (before o d.rows).ovrs e.ctx.opid e.task))
            ∧ (∀ o ∈ led, s.LedgerUsed t k o.led e.ctx.step e.ctx.opid (x o) ((before o d.rows).entry.getD (x o).entry) (before o d.rows).ovrs))

/-! The matrix array -/

/-- R177, R179, R183, R216, R217: MZERO and MPRE, on a tile that no pass in flight adds to, replace its content by a new empty reduction with the fields of the
instruction and of the context. -/
def Obligations.TilesOpen : Prop :=
  ∀ (s : State) (n k : Nat) (f : MopenFmt),
    let e := s.eng k
    let a := (e.getS f.a.toNat).toNat
    let b := (e.getS (f.a.toNat + 1)).toNat
    let int := f.mode = 1#1
    let leaf := f.leafLog.toNat
    let seg := f.seglen.toNat
    let tree := f.treeLog.toNat
    let chunk := b / 2 ^ 32
    let rm : RMode := if f.mode = 0#1 ∧ f.rmode.toNat = 5 then .sr else .rne
    let opened := fun (pre : Option Preload) => ({
      int := f.mode = 1#1, seglen := seg, rmode := rm, leafLog := leaf, treeLog := tree, chunkBase := chunk, opid := e.ctx.opid,
      step := e.ctx.step, ebase := a, erow := b % 2 ^ 32, pre } : Tile)
    f.rsv = 0#8 → isS f.a → f.a.toNat % 2 = 0 → a < 2 ^ 44 → b < 2 ^ 54 → (int ∨ f.rmode.toNat = 0 ∨ f.rmode.toNat = 5) →
    leaf ≤ 3 → seg ≤ 6 → tree ≤ 16 → leaf ≤ tree → chunk + 2 ^ leaf * 2 ^ seg ≤ 2 ^ 22 →
    (rm = .sr → a + 127 * (b % 2 ^ 32) + 127 < 2 ^ 44 ∧ chunk + 2 ^ leaf * 2 ^ seg < 2 ^ 22 - 1) → e.mmaOn f.t.toNat = false →
    (f.pr = 0#6 → f.pfmt = 0#2 → f.shape = 0#2 → f.pstride = 0#12 → s.Next (.mzero n f) n k →
      exec (.mzero n f) s = .next (s.withEng k ((e.setTile f.t.toNat (some (opened none))).advance)))
    ∧ (isS f.pr → f.shape ≠ 3#2 → ¬ int → (∀ p ∈ [(0, Fmt.b32), (1, .zf24), (2, .zf16)], f.pfmt.toNat = p.1 → s.Next (.mpre n f) n k →
        exec (.mpre n f) s = .next (s.withEng k ((e.setTile f.t.toNat
          (some (opened (some ⟨(e.getS f.pr.toNat).toNat, p.2, f.shape.toNat, f.pstride.toNat⟩)))).advance))))

/-- R131, R174, R175, R213, R215: MLOAD reads a stored block with its scale codes; MLOAD_COMPLETE makes it the bank's content.
It rests on the model's readings of log entry 36. -/
def Obligations.BankLoads : Prop :=
  ∀ (s : State) (n k : Nat),
    let e := s.eng k
    (∀ (f : MloadFmt) (T : Fmt), f.rsv = 0#23 → isS f.a → isS f.s → f.stride ≠ 0#12 → Fmt.ofCode f.fmt.toNat false = some T → T.operand = true → f.smode.toNat ≠ 7 →
      let b : Block := ⟨f.ori = 1#1, T, (e.getS f.a.toNat).toNat, f.stride.toNat, f.smode.toNat, e.getS f.s.toNat⟩
      s.Accepts k n (if f.ori = 1#1 then blockAccs b 128 (bankDepth T) else blockAccs b (bankDepth T) 128) → s.Next (.mload n f) n k →
      ∃ j, exec (.mload n f) s = .next (s.withEng k (({ e with jobs := e.jobs ++ [.mload j] } : Engine).advance))
        ∧ j.bank = f.bank.toNat ∧ j.data.fmt = some T ∧ j.data.smode = f.smode.toNat
        ∧ ∀ col pos, col < 128 → pos < bankDepth T → (j.data.cols.getD col []).getD pos .nan =
            (let rd := s.core.es k
             let (row, el) := if f.ori = 1#1 then (col, pos) else (pos, col)
             applyCode (T.decode (readElem rd T (b.off + row * b.stride * 64) el))
               (scaleCode rd b.smode ((e.getS f.s.toNat).toNat % 2 ^ 22) ((e.getS f.s.toNat).toNat / 2 ^ 48 % 2 ^ 16) row el)))
    ∧ (∀ (bank : Nat) (j : MloadJob), s.core.slotOf n = some k → mloadOf e.jobs bank = some j → bankHeld e.jobs bank = false →
        exec (.mloadComplete n bank) s = .next (s.withEng k { e with sb := e.sb.set j.bank j.data, jobs := dropJob (fun x => x = .mload j) e.jobs }))

/-- R173, R176, R178, R180, R181: MMA starts a pass on an open tile and counts its chunks; MMA_PASS_COMPLETE adds the chunks of the oldest pass to its tile.
It rests on the model's readings of log entry 36. -/
def Obligations.ArrayPasses : Prop :=
  ∀ (s : State) (n k : Nat),
    let e := s.eng k
    (∀ (f : MmaFmt) (T : Fmt) (t : Tile) (F : Fmt), f.rsv = 0#9 → isS f.a → isS f.s → f.stride ≠ 0#12 → f.rlog.toNat ∈ [0, 5, 6, 7, 8] →
      mloadOf e.jobs f.bank.toNat = none → Fmt.ofCode f.fmt.toNat false = some T → T.operand = true → f.smode.toNat ≠ 7 →
      e.getTile f.t.toNat = some t → (e.sb.getD f.bank.toNat {}).fmt = some F → (pairing F T).map (·.2) = some t.int →
      (t.int = true → (e.sb.getD f.bank.toNat {}).smode = 0 ∧ f.smode.toNat = 0 ∧ f.rlog.toNat % 2 = 0) →
      let b : Block := ⟨f.ori = 1#1, T, (e.getS f.a.toNat).toNat, f.stride.toNat, f.smode.toNat, e.getS f.s.toNat⟩
      let rows := f.mm1.toNat + 1
      let chunks := bankDepth F / 128
      t.nchunk + chunks ≤ 2 ^ t.leafLog * 2 ^ t.seglen →
      s.Accepts k n (if f.ori = 1#1 then blockAccs b (bankDepth F) rows else blockAccs b rows (bankDepth F)) →
      (t.int = false → t.rmode = .sr → s.core.on pgRng = true) → s.Next (.mma n f) n k →
      ∃ j, exec (.mma n f) s = .next (s.withEng k
          (({ e.setTile f.t.toNat (some { t with nchunk := t.nchunk + chunks }) with jobs := e.jobs ++ [.mma j] } : Engine).advance))
        ∧ j.tile = f.t.toNat ∧ j.bank = f.bank.toNat ∧ j.rlog = f.rlog.toNat ∧ j.chunk = t.nchunk
        ∧ j.rows = streamRows (s.core.es k) b (bankDepth F) rows)
    ∧ (∀ (j : MmaJob) (t : Tile), s.core.slotOf n = some k → firstMma e.jobs = some j → e.getTile j.tile = some t →
        exec (.mmaPassComplete n) s = .next (s.withEng k
          { e.setTile j.tile (some (mmaPass e.seed j (e.sb.getD j.bank {}) t)) with jobs := dropJob (fun x => x = .mma j) e.jobs }))

/-- R65, R107, R144, R176: a pass on an integer tile without rotation adds to each element the exact sum of the products of its streamed row and its
stationary column; rows beyond those streamed keep their sums. -/
def Obligations.IntegerDotProduct : Prop :=
  ∀ (seed : W64) (j : MmaJob) (b : Bank) (t : Tile) (F : Fmt) (x y : Nat → Nat → Int), t.int = true → j.rlog = 0 → b.fmt = some F →
    (t.rows = [] ∨ (t.rows.length = 128 ∧ ∀ row ∈ t.rows, row.length = 128)) →
    (∀ r, (j.rows.getD r []) = if r < j.rows.length then (List.range (bankDepth F)).map (fun i => Val.ofInt (x r i)) else []) →
    (∀ c, c < 128 → b.cols.getD c [] = (List.range (bankDepth F)).map (fun i => Val.ofInt (y c i))) →
    ∀ r c, r < 128 → c < 128 →
      (((mmaPass seed j b t).grid.getD r []).getD c {}).sum = ((t.grid.getD r []).getD c {}).sum
        + if r < j.rows.length then ((List.range (bankDepth F)).map (fun i => x r i * y c i)).sum else 0

/-- R101, R102, R180, R185: whatever the order of completion of the leaves in the hardware, the subtree root of a float element is the root of the fixed
binary tree over its leaves in ascending order, with +0 for the missing ones. -/
def Obligations.SubtreeRoot : Prop :=
  ∀ (t : Tile) (draw : Nat → Nat) (l : List Val), t.seglen = 0 → t.leafLog ≤ 16 → l.length ≤ 2 ^ t.leafLog →
    elemRoot { t with added := l.length } (l.zipIdx.foldl (fun el p => addChunkFloat 1 p.2 t.rmode (draw p.2) p.1 el) {}) =
      treeRoot (addZA .rne 0) t.leafLog l

/-- R90, R134, R147, R149, R185 to R191, R210, R219: MDRAIN in the engine's own drain unit, without a pushed side output or a popped operand: the tiles close, what
the descriptor names may be written and nothing else. Rows 0 to 126 and the side output are stored as the stages D2 to D9 give them; the last row, the record and
the taps are left for MDRAIN_COMPLETE; in LEDGER mode the entry is opened, folded and reported. For a float tile of width 128 drained plainly (no function,
rotation, smoothing or scale), rows 0 to 126 hold the elements' roots with the preload added, converted once.
It rests on the model's readings of log entries 20, 36, 38 and 67. -/
def Obligations.TileDrains : Prop :=
  ∀ (s : State) (n k : Nat) (f : MdrainFmt) (t : Tile) (p : DrainPlan) (u : Option Tile) (x : Option LedgerSeen),
    let e := s.eng k
    let at' := (e.getS f.a.toNat).toNat
    let b := (List.range 64).map (fun i => s.byte (esAddr k (at' + i)))
    let d := DrainDesc.ofBytes b
    let tap := if f.tap = 1#1 then some f.la.toNat else none
    f.rsv = 0#43 → f.pt = 0#1 → isS f.a → e.getTile f.t.toNat = some t → e.mmaOn f.t.toNat = false → s.memWf → s.Usable k n at' 64 64 false →
    (if d.rlog = 8 ∧ f.t.toNat % 2 = 0 then e.mmaOn (f.t.toNat + 1) = false ∧ ∃ v, u = some v ∧ e.getTile (f.t.toNat + 1) = some v ∧ t.agrees v = true else u = none) →
    drainPlan (s.core.iss k n) at' b f.t.toNat t u tap = .ok p → (9 ≤ d.fn → d.gpop = false) → (d.save ≠ 0 → d.savePush = false) →
    (if d.smode = 3 then ∃ y, x = some y ∧ s.LedgerOpens d.ledger t.step p.tgt y ∧ s.core.lg.held + 2 ≤ itemCap else x = none) →
    s.Accepts k n ((preAccs t ++ (u.map preAccs).getD []) ++ p.accs) →
    (d.smooth = true → ∀ c, c < p.w → s.core.es k (d.smoothOff + d.ocol + c) ≤ 192) → (d.smode = 1 → s.core.es k d.scale ≠ 0xFF) →
    (p.mode = .sr → p.topE < 2 ^ 44) → (p.mode = .sr ∨ d.rlog ≠ 0 → s.core.on pgRng = true) → (∀ c ∈ s.core.dep.cls, c = none) →
    s.Checked k t → (∀ v, u = some v → s.Checked k v) → s.Next (.mdrain n f none) n k →
    let next := (({ e.closeTiles f.t.toNat u.isSome with nsSeq := e.nsSeq + 1 } : Engine).advance)
    let out := p.staged (s.core.es k) e.seed (x.map (·.entry))
    let side := if d.save = 0 then [] else pairsAt d.saveAddr (sideOutput d.save p.w (p.rows (s.core.es k)))
    let writes := p.rowsWrites (s.core.es k) side (out.1.take 127)
    let items := (x.map (·.seedItems d.ledger t.opid)).getD [] ++ s.ovrItems d.ledger out.2.ovrs t.opid e.task
    ∃ t' j, exec (.mdrain n f none) s = .next t'
      ∧ s.LedgerEffect t' k p.accs (if d.smode = 3 then [d.ledger] else []) (s.logged items) { next with jobs := e.jobs ++ [.drain j] }
      ∧ s.Wrote t' k writes ∧ (∀ row, out.1[127]? = some row → j.writes = p.rowWrites (readAfter (s.core.es k) writes) 127 row)
      ∧ j.record = out.2.cnt ∧ j.ovr = decide (out.2.ovrs ≠ 0) ∧ j.seed = x.any LedgerSeen.seeded
      ∧ j.taps = (if tap.isSome then (out.1.map (rowTaps p.tgt d.smode)).flatten else [])
      ∧ (∀ y, x = some y → s.LedgerUsed t' k d.ledger t.step t.opid y (out.2.entry.getD y.entry) out.2.ovrs)
      ∧ j.tile = f.t.toNat ∧ j.seq = e.nsSeq + 1 ∧ j.tap = tap ∧ j.recOff = (if d.recNone then none else some d.recOff) ∧ j.pieces = []
      ∧ (t.int = false → u = none → d.fn = 0 → d.rlog = 0 → d.smooth = false → d.smode = 0 → d.save = 0 → 8 ≤ p.tgt.bits →
          let w := p.tgt.bits / 8
          (d.ocol + 128) * w ≤ d.ostride * 64 → ∀ r c, r < 127 → c < 128 →
            let root := (t.roots.getD r []).getD c Val.zero
            let v := match t.pre with
              | some q => addZA .rne 0 root (preloadAt (s.core.es k) q r c)
              | none => root
            let draw := if p.mode = .sr then DrawKey.draw ⟨e.seed, t.opid, t.step⟩ (t.ebase + r * t.erow + c) 0 else 0
            t'.number (esAddr k (d.out + r * d.ostride * 64 + (d.ocol + c) * w)) w = (p.tgt.convert p.mode d.strict draw (v.scale 0)).1 % 2 ^ p.tgt.bits)

/-- R90, R134, R190, R210, R248: MDRAIN_COMPLETE finishes the oldest drain: its last bytes and its record are written, its taps enter the long accumulator in one
step, NSTAT takes its status unless a later instruction sets it, and its pieces are ready.
It rests on the model's readings of log entries 36 and 83. -/
def Obligations.DrainCompletes : Prop :=
  ∀ (s : State) (n k : Nat) (j : DrainJob), s.core.slotOf n = some k → k < s.core.engs.length → s.memWf →
    let e := s.eng k
    e.jobs.findSome? (fun x => match x with | .drain d => some d | _ => none) = some j →
    ∃ t, exec (.mdrainComplete n j.tile) s = .next t
      ∧ t.eng k = { e with jobs := dropJob (fun x => x = .drain j) e.jobs, nonfinite := e.reported j.record,
                           nstat := (if j.seq = e.nsSeq then j.record.nstat j.ovr j.seed else e.nstat),
                           la := (match j.tap with | some a => e.la.set a (j.taps.foldl LongAcc.addVal (e.getLa a)) | none => e.la) }
      ∧ (∀ i, i ≠ k → t.eng i = s.eng i)
      ∧ s.Wrote t k (j.writes ++ (match j.recOff with | some o => pairsAt o j.record.bytes | none => []))
      ∧ t = { s with core := { s.core.reported t.core with engs := t.core.engs, mem := t.core.mem, poison := t.core.poison, ts := t.core.ts, js := t.core.js } }
      ∧ (∀ a, (∀ w ∈ j.writes, a ≠ esAddr k w.1) → (∀ o, j.recOff = some o → a < esAddr k o ∨ esAddr k o + 32 ≤ a) → t.byte a = s.byte a)
      ∧ (∀ c ∈ j.pieces, ∀ ch ∈ (t.core.jt (decide (c % 2 = 1))).chains, ∀ q ∈ ch.pieces, q.id = c / 2 → q.ready = true)
      ∧ (∀ c ∈ t.core.ts.chains, ∀ q ∈ c.pieces, 2 * q.id + 1 ∉ j.pieces → ∃ c' ∈ s.core.ts.chains, q ∈ c'.pieces)

/-- R110 to R112, R248, R433, R434: MDRAIN with PT 1 puts its tile into the group of task, panel, tile and ordinal, a new one or one that is open, and closes it in
the engine; the part that holds leaf 0 also allocates what it pushes; the group is combined
by PANEL_TREE_COMBINE once every engine of the task in the panel has drained into it, with the descriptor of the part that holds leaf 0; the other parts' drains, which convert nothing, set NSTAT to 0. R100, R102, R110, R112: in an aligned split into parts of one leaf each, the panel tree gives the value that one engine with all the leaves would give, and in an
unaligned split the balanced tree over the parts in ascending logical index.
It rests on the model's readings of log entry 68. -/
def Obligations.PanelTree : Prop :=
  (
    (∀ (s : State) (n k q i : Nat) (f : MdrainFmt) (t : Tile) (u : Option Tile) (v : Task) (push : PushPlan) (p : DrainPlan),
      let e := s.eng k
      let at' := (e.getS f.a.toNat).toNat
      let b := (List.range 64).map (fun j => s.byte (esAddr k (at' + j)))
      let ord := e.ptCount.getD f.t.toNat 0
      let d := DrainDesc.ofBytes b
      let tap := if f.tap = 1#1 then some f.la.toNat else none
      let leads := decide (t.chunkBase < 2 ^ t.seglen)
      let part : PtPart := { slot := k, eng := n, tile := t, pair := u, desc := b, tap, at', pc := e.pc, seq := e.nsSeq + 1, ctx := e.ctx,
                             push := if leads then some push else none }
      let old := s.core.ptGroups.find? (fun g => decide (g.task = (q, i)) && g.panel = n / 48 && g.tile = f.t.toNat && g.ord = ord)
      let g := old.getD ⟨(q, i), n / 48, f.t.toNat, ord, []⟩
      let m := if leads then s.core.pushAlloc (s.core.iss k n) p push else (s.core, [])
      f.rsv = 0#43 → f.pt = 1#1 → isS f.a → e.getTile f.t.toNat = some t → e.mmaOn f.t.toNat = false → s.Usable k n at' 64 64 false →
      drainDescBad b (f.t.toNat % 2 = 1) = none →
      (if d.rlog = 8 then e.mmaOn (f.t.toNat + 1) = false ∧ ∃ w, u = some w ∧ e.getTile (f.t.toNat + 1) = some w ∧ t.agrees w = true else u = none) →
      ((descPushes b || descPops b) = true → s.core.ptStacks (s.core.iss k n) = false) →
      (if leads = true then drainPlan (s.core.iss k n) at' b f.t.toNat t u tap = .ok p ∧ s.Accepts k n ((preAccs t ++ (u.map preAccs).getD []) ++ p.accs)
        ∧ (∀ r ∈ s.core.drainData (s.core.iss k n) p, r = none) ∧ s.core.planPush (s.core.iss k n) p = .ok push
       else s.Accepts k n (preAccs t ++ (u.map preAccs).getD [])) →
      s.Checked k t → (∀ w, u = some w → s.Checked k w) → (∀ c ∈ s.core.dep.cls, c = none) → e.task = some (q, i) → s.core.task? q i = some v →
      (v.inPanel (n / 48)).length ≤ 32 → (∀ r ∈ g.parts, r.agrees part = true) →
      (old = none → (s.core.ptGroups.filter (fun h => h.panel = n / 48)).length < 8) → s.Next (.mdrain n f none) n k →
      exec (.mdrain n f none) s = .next (({ s with core := { m.1 with
          ptGroups := s.core.ptGroups.filter (fun h => h ≠ g) ++ [{ g with parts := g.parts ++ [{ part with pieces := m.2 }] }] } } : State).withEng k
        (({ e.closeTiles f.t.toNat u.isSome with ptCount := e.ptCount.set f.t.toNat (ord + 1), nsSeq := e.nsSeq + 1 } : Engine).advance)))
    ∧ ∀ (s : State) (gi : Nat) (g : PtGroup) (lead : PtPart) (p : DrainPlan),
      let parts := sortParts g.parts
      let aligned := groupAligned (parts.map (·.tile)) || (parts.map (·.tile)).any (·.int)
      let k := lead.slot
      let e := s.eng k
      let d := DrainDesc.ofBytes lead.desc
      s.core.ptGroups = [g] → gi = 0 → s.core.ptWhole g = true → leadPart aligned parts = some lead → k < s.core.engs.length → s.memWf →
      (∀ q ∈ parts, q.slot = k ↔ q.eng = lead.eng) → (lead.push = none ∨ lead.push = some .none) → lead.pieces = [] →
      drainPlan { s.core.iss k lead.eng with e := { e with pc := lead.pc, ctx := lead.ctx } } lead.at' lead.desc g.tile lead.tile lead.pair lead.tap = .ok p →
      d.fn < 9 → d.save = 0 → d.smode = 0 → d.smooth = false → d.rlog = 0 → p.mode ≠ .sr → e.jobs = [] → lead.tap = none → lead.pair = none →
      ({ s with core := { s.core with ptGroups := [] } } : State).Accepts k lead.eng p.accs →
      ∃ t ns nf, exec (.panelTreeCombine gi) s = .next t ∧ t.core.ptGroups = []
        ∧ t.eng k = { e with nonfinite := nf, nstat := ns } ∧ (lead.seq ≠ e.nsSeq → ns = e.nstat)
        ∧ (∀ j, j ≠ k → t.eng j = { s.eng j with nstat := if parts.any (fun q => q.slot = j && q.seq = (s.eng j).nsSeq) then 0#16 else (s.eng j).nstat })
        ∧ (d.fn = 0 → (parts.all (fun q => q.tile.pre.isNone && !q.tile.int)) = true → 8 ≤ p.tgt.bits →
            let w := p.tgt.bits / 8
            (d.ocol + 128) * w ≤ d.ostride * 64 → (d.recNone = true ∨ d.recOff + 32 ≤ d.out ∨ d.out + 128 * (d.ostride * 64) ≤ d.recOff) → ∀ r c, r < 128 → c < 128 →
              let v := combineVals (groupAligned (parts.map (·.tile))) (parts.map (fun q => (q.tile, (q.tile.roots.getD r []).getD c Val.zero)))
              t.number (esAddr k (d.out + r * d.ostride * 64 + (d.ocol + c) * w)) w = (p.tgt.convert p.mode d.strict 0 (v.scale 0)).1 % 2 ^ p.tgt.bits))
  ∧ (
    (∀ (t : Tile) (l : List Val), l.length = 2 ^ t.treeLog → t.leafLog = 0 → t.seglen = 0 →
      combineVals true ((l.zipIdx).map (fun p => ({ t with chunkBase := p.2 }, p.1))) = treeRoot (addZA .rne 0) t.treeLog l)
    ∧ ∀ (l : List (Tile × Val)), combineVals false l = treeRoot (addZA .rne 0) (log2Ceil l.length) (l.map (·.2)))

/-! Transfers, event counters, pieces -/

/-- R170, R171, R223, R603: DMA.G and DMA.P under a free tag start a transfer; one of another module is a message of the router, READ_REQ or WRITE; a length of 0 ends
at once; DMA.W passes once its tag is free and unfaulted.
It rests on the model's readings of log entries 36 and 70. -/
def Obligations.TransfersStart : Prop :=
  ∀ (s : State) (n k : Nat) (f : RFmt), f.d.toNat < 16 →
    let e := s.eng k
    let off := (e.getS f.a.toNat).toNat
    let ga := (e.getS f.b.toNat).toNat
    let len := (e.getS f.c.toNat).toNat
    let tag := e.getTag f.d.toNat
    tag.xfer = none → tag.fault = false →
    (s.Next (.dmaW n f) n k → exec (.dmaW n f) s = .next (s.passed k))
    ∧ (namesABC f → len % 64 = 0 → len ≤ 0x400000 → ga < 2 ^ 60 → off + len ≤ 2 ^ 22 → off % 64 = 0 →
      let started := fun (y : Xfer) => ((e.setTag f.d.toNat { tag with xfer := some y }).advance)
      (len = 0 → (s.Next (.dmaG n f) n k → exec (.dmaG n f) s = .next (s.passed k)) ∧ (s.Next (.dmaP n f) n k → exec (.dmaP n f) s = .next (s.passed k)))
      ∧ (len ≠ 0 → ga / 2 ^ 44 = s.core.modid →
          (s.Next (.dmaG n f) n k → exec (.dmaG n f) s = .next (s.withEng k (started { kind := .get, off, addr := ga, len })))
          ∧ (s.Next (.dmaP n f) n k → ∃ opt, exec (.dmaP n f) s = .next (s.withEng k (started { kind := .put, off, addr := ga, len, opt }))))
      ∧ (len ≠ 0 → ga / 2 ^ 44 ≠ s.core.modid →
          let told := fun (t : State) (ty : Nat) (data : List Nat) => ∃ x, t.core.rt.msgs = s.core.rt.msgs ++ [x] ∧ x.owner = .dma k f.d.toNat ∧ x.dst = ga / 2 ^ 44
            ∧ x.type = ty ∧ x.addr = ga % 2 ^ 44 ∧ x.data = data ∧ x.slice = s.core.sliceId ∧ x.left = List.range (pktCount data.length)
          (s.Next (.dmaG n f) n k → ∃ t, exec (.dmaG n f) s = .next t ∧ told t 2 []
            ∧ t.eng k = started { kind := .get, off, addr := ga, len, remote := true } ∧ t = { s with core := { s.core with engs := t.core.engs, rt := t.core.rt } })
          ∧ (s.core.firstPoison (esAddr k off) len = none → s.Next (.dmaP n f) n k → ∃ t, exec (.dmaP n f) s = .next t
            ∧ told t 1 ((List.range len).map (fun i => s.byte (esAddr k off + i)))
            ∧ t.eng k = started { kind := .put, off, addr := ga, len, remote := true } ∧ t = { s with core := { s.core with engs := t.core.engs, rt := t.core.rt } })))

/-- R170, R171, R248, R250, R314, R325, R368, R445: DMA_TRANSFER_COMPLETE frees the tag of a transfer that ends well, its data moved, and records a memory fault with
its address otherwise, also where a path has spoilt the data; the fault address of a kernel fault stays (R199).
It rests on the model's readings of log entry 70. -/
def Obligations.TransfersEnd : Prop :=
  ∀ (s : State) (n k tag : Nat) (y : Xfer), s.core.slotOf n = some k → k < s.core.engs.length → s.memWf →
    let e := s.eng k
    let a := y.addr % 2 ^ 44
    let ended := fun (t : State) => exec (.dmaTransferComplete n tag) s = .next t
    (e.getTag tag).xfer = some y →
    (y.remote = true → y.answered = true → (y.status = 0 → ended (s.withEng k (e.setTag tag {})))
      ∧ (y.status ≠ 0 → ended (s.withEng k { e.setTag tag { fault := true, addr := y.addr } with faultAddr := if e.faultCode = 0 then y.addr else e.faultAddr })))
    ∧ (y.remote = true → y.answered = false → ended s)
    ∧ (y.remote = false → y.kind = .get → ∀ bs, s.core.load (.engine k) a y.len = (s.core, .ok bs) → (∀ b ∈ bs, b < 256) → (∀ i ∈ s.core.stks, i.st ≠ .failed) →
        ∃ t, ended t ∧ s.Stored t k (esAddr k y.off) bs (e.setTag tag {}))
    ∧ (y.remote = false → y.kind = .get → ∀ m stop c, s.core.load (.engine k) a y.len = (m, .refused stop c) → ∃ t, ended t
        ∧ (t.eng k).getTag tag = { fault := true, addr := s.core.modid * 2 ^ 44 + stop }
        ∧ (t.eng k).faultAddr = if e.faultCode = 0 then s.core.modid * 2 ^ 44 + stop else e.faultAddr)
    ∧ (y.remote = false → y.kind = .get → ∀ m stop, s.core.load (.engine k) a y.len = (m, .poisoned stop) →
        (regionOf stop = .mem ∨ ∃ b, s.core.access (.engine k) stop = .ok b ∧ s.core.spoilt b = true) → ∃ t, ended t
        ∧ (t.eng k).getTag tag = { fault := true, addr := s.core.modid * 2 ^ 44 + stop / 64 * 64 }
        ∧ (t.eng k).faultAddr = if e.faultCode = 0 then s.core.modid * 2 ^ 44 + stop / 64 * 64 else e.faultAddr)
    ∧ (y.remote = false → y.kind ∈ [.put, .push] → ∀ stop, s.core.firstPoison (esAddr k y.off) y.len = some stop → s.core.spoilt stop = true → ∃ t, ended t
        ∧ (t.eng k).getTag tag = { fault := true, addr := s.core.modid * 2 ^ 44 + stop / 64 * 64 } ∧ (∀ b, t.byte b = s.byte b))
    ∧ (y.remote = false → y.kind = .put → s.core.firstPoison (esAddr k y.off) y.len = none → ∀ m,
        s.core.store (.engine k) a ((List.range y.len).map (fun i => s.byte (esAddr k y.off + i))) y.opt = (m, none) →
        ended ({ s with core := m.setEng k ((m.eng k).setTag tag {}) }))
    ∧ (y.remote = false → y.kind = .pop → y.bad = none → (∀ b ∈ y.data, b < 256) → (∀ i ∈ s.core.stks, i.st ≠ .failed) →
        ∃ t, ended t ∧ s.Stored t k (esAddr k y.off) y.data (e.setTag tag {}))
    ∧ (y.remote = false → y.kind = .push → s.core.firstPoison (esAddr k y.off) y.len = none → ∃ t, ended t ∧ (t.eng k).getTag tag = {}
        ∧ ∀ c ∈ (t.core.jt (decide (y.piece % 2 = 1))).chains, ∀ q ∈ c.pieces, q.id = y.piece / 2 → q.ready = true)

/-- R224, R312, R313, R315: EVWAIT passes once the counter has reached the threshold and waits for it otherwise; EVWAIT_END ends the wait; EVSIG adds to a counter
once earlier work has ended; FENCE passes then.
It rests on the model's readings of log entry 10. -/
def Obligations.EventWaits : Prop :=
  ∀ (s : State) (n k : Nat) (f : RFmt), s.Wf →
    let e := s.eng k
    let a := (e.getS f.a.toNat).toNat
    let b := (e.getS f.b.toNat).toNat
    let idle := e.jobs = [] ∧ s.core.ptPending k = false ∧ e.moving = false
    (isS f.a → isS f.b → s.Next (.evwait n f) n k →
      (b ≤ s.core.ctr (a % 2 ^ 16) → exec (.evwait n f) s = .next (s.passed k))
      ∧ (s.core.ctr (a % 2 ^ 16) < b → exec (.evwait n f) s = .next (s.withEng k { e with wait := .ev (a % 2 ^ 16) b })))
    ∧ (∀ c t, s.core.slotOf n = some k → k < s.core.engs.length → e.wait = .ev c t →
        (t ≤ s.core.ctr c → exec (.evwaitEnd n) s = .next (s.withEng k (({ e with wait := .none } : Engine).advance)))
        ∧ (s.core.ctr c < t → exec (.evwaitEnd n) s = .next s)
        ∧ (s.core.ctr c < t → s.core.reg pgDsp 0x10C ≠ 0 → s.core.ptPending k = false → exec (.evwaitExpired n) s = .next (s.faulted k
            { code := Ev.evwaitExpired, d0 := c, d1 := s.core.ctr c, d2 := n, d3 := some e.queueNo, page := some pgDsp })))
    ∧ (isS f.a → isS f.b → idle → bitAt a 32 = false → s.Next (.evsig n f) n k →
        (b = 0 → exec (.evsig n f) s = .next (s.passed k))
        ∧ (b ≠ 0 → ∃ t, exec (.evsig n f) s = .next t ∧ t.core.ctr (a % 2 ^ 16) = min (s.core.ctr (a % 2 ^ 16) + b) (2 ^ 64 - 1)
            ∧ (∀ c, c ≠ a % 2 ^ 16 → t.core.ctr c = s.core.ctr c)
            ∧ (s.NoTails → t.eng k = e.advance ∧ (∀ j, j ≠ k → t.eng j = s.eng j) ∧ ∀ x, t.byte x = s.byte x)))
    ∧ (isS f.a → isS f.b → idle → bitAt a 32 = true → a / 2 ^ 16 % 2 ^ 16 ≠ s.core.modid → 0 < b → b < 2 ^ 24 → s.Next (.evsig n f) n k →
        ∃ t x, exec (.evsig n f) s = .next t ∧ t.core.rt.msgs = s.core.rt.msgs ++ [x] ∧ x.type = 4 ∧ x.dst = a / 2 ^ 16 % 2 ^ 16 ∧ x.arg = a % 2 ^ 16 + b * 2 ^ 16
          ∧ t.eng k = ({ e with remotes := e.remotes + 1 } : Engine).advance)
    ∧ (idle → (∀ i, i < 16 → (e.getTag i).fault = false) → s.Next (.fence n f) n k → exec (.fence n f) s = .next (s.passed k))

/-- R244 to R253, R257: JPUSH and TPUSH put a piece on top of the chain of engine and microbatch and start its transfer; JPOP and TPOP take the top piece, whose
tag and length must be named, once its data has moved, or with FUNC[7] read the newest piece with the tag and leave it. While the epoch controller page is
disabled a pop finds no piece (R258).
It rests on the model's readings of log entries 11 and 69. -/
def Obligations.Pieces : Prop :=
  ∀ (s : State) (n k : Nat) (f : RFmt) (t : Bool), f.d.toNat < 16 → namesABC f →
    let e := s.eng k
    let off := (e.getS f.a.toNat).toNat
    let tag := (e.getS f.b.toNat).toNat
    let len := (e.getS f.c.toNat).toNat
    let c := (s.core.jt t).chainOf n tag
    let push := if t then Instr.tpush n f else Instr.jpush n f
    let pop := if t then Instr.tpop n f else Instr.jpop n f
    (e.getTag f.d.toNat).xfer = none → (e.getTag f.d.toNat).fault = false → tag < 2 ^ 32 → tag % 16 = 0 → len % 64 = 0 → 64 ≤ len → len ≤ 0x400000 → off + len ≤ 2 ^ 22 → off % 64 = 0 →
    s.core.ptGroups = [] →
    ((c.pieces = [] ∨ c.mb = tagMb tag) → s.core.jtRoom t n tag len = true → s.Next push n k → ∃ u p, exec push s = .next u
      ∧ ((u.core.jt t).chainOf n tag).pieces = p :: c.pieces ∧ p.tag = tag ∧ p.len = len ∧ p.kind = f.func.toNat % 128 ∧ p.step = e.ctx.step ∧ p.ready = false
      ∧ p.pos = c.end' ∧ p.id = (s.core.jt t).next ∧ u.core.jt (!t) = s.core.jt (!t)
      ∧ u.eng k = (e.setTag f.d.toNat { (e.getTag f.d.toNat) with xfer := some { kind := .push, off, addr := 0, len, piece := 2 * p.id + b2n t } }).advance)
    ∧ (s.core.on pgEp = false → s.Next pop n k → exec pop s = .next (s.faulted k { code := Ev.jerseyOrder, d0 := tag, d1 := 1, d2 := 0 }))
    ∧ (∀ p rest, s.core.on pgEp = true → f.func.getLsbD 7 = false → c.pieces = p :: rest → p.tag = tag → p.len = len → p.ready = true → s.Next pop n k → ∃ u y, exec pop s = .next u
      ∧ ((u.core.jt t).chainOf n tag).pieces = rest ∧ y.kind = .pop ∧ y.off = off ∧ y.len = len
      ∧ y.data = (List.range len).map (fun i => s.byte (s.core.jtAddr t c (p.pos + 64 + i)))
      ∧ u.eng k = (e.setTag f.d.toNat { (e.getTag f.d.toNat) with xfer := some y }).advance ∧ ∀ a, u.byte a = s.byte a)
    ∧ (∀ p, s.core.on pgEp = true → f.func.getLsbD 7 = true → c.pieces.find? (fun q => q.tag = tag) = some p → p.len = len → p.ready = true → s.Next pop n k → ∃ y, exec pop s =
        .next (s.withEng k (e.setTag f.d.toNat { (e.getTag f.d.toNat) with xfer := some y }).advance) ∧ y.kind = .pop ∧ y.off = off ∧ y.len = len
      ∧ y.data = (List.range len).map (fun i => s.byte (s.core.jtAddr t c (p.pos + 64 + i))))

/-! Dispatch -/

/-- R283 to R293, R317, R606: the queue commands through DSP_QCMD and the doorbell. ENABLE reads the entry whole and makes the queue ACTIVE with its indices;
DISABLE drains it, and a task read but not started returns to the ring; RESUME makes a halted one ACTIVE; a doorbell gives TAIL its low 19 bits; a command that the state does not allow is reported.
It rests on the model's readings of log entries 71 and 85. -/
def Obligations.QueueCommands : Prop :=
  ∀ (s : State) (q : Nat), s.Acts pgDsp → s.Wf → q < 8192 →
    let x := s.core.queue q
    let others := fun (t : State) => ∀ p, p ≠ q → (t.core.queue p).state = (s.core.queue p).state ∧ (t.core.queue p).head = (s.core.queue p).head
      ∧ (t.core.queue p).tail = (s.core.queue p).tail
    (∀ b, x.state = .disabled → s.core.load .dispatch (s.core.qtAddr q) 64 = (s.core, .ok b) → s.core.qtBad b = none → (Queue.ofBytes b).tailsrc = false →
      ∃ t, exec (.queueEnable q) s = .next t ∧ others t
        ∧ let y := t.core.queue q
          let e := Queue.ofBytes b
          y.state = .active ∧ y.ring = e.ring ∧ y.rlog = e.rlog ∧ y.cring = e.cring ∧ y.tail = e.tail ∧ y.head = e.head ∧ y.free = e.free ∧ y.doneIdx = e.doneIdx
          ∧ y.prio = e.prio ∧ y.msix = e.msix ∧ y.tasks = 0 ∧ y.cached = true)
    ∧ (∀ b byte, x.state = .disabled → s.core.load .dispatch (s.core.qtAddr q) 64 = (s.core, .ok b) → s.core.qtBad b = some byte →
        ∃ t, exec (.queueEnable q) s = .next t ∧ s.raised t pgDsp Ev.qtFault byte 0 0 q ∧ t.core.queue q = x ∧ others t)
    ∧ (x.state = .active ∨ x.state = .halted → x.head < 2 ^ 32 → (∀ u ∈ s.core.dsp.tasks, u.q ≠ q) →
        ∃ t, exec (.queueDisable q) s = .next t ∧ t.core.queue q = { x with state := .disabled, pinned := false } ∧ others t)
    ∧ (∀ u, x.state = .active ∨ x.state = .halted → s.core.dsp.tasks.filter (fun v => v.q = q) = [u] → u.begun = [] → u.redone = false → u.faultCode = 0 →
        (∀ d ∈ s.core.dsp.done, d.q ≠ q) → u.idx < 2 ^ 32 → x.head = (u.idx + 1) % 2 ^ 32 →
        ∃ t, exec (.queueDisable q) s = .next t ∧ t.core.queue q = { x with state := .disabled, pinned := false, head := u.idx } ∧ others t
          ∧ ∀ v ∈ t.core.dsp.tasks, v.q ≠ q)
    ∧ (x.state = .active ∨ x.state = .halted → x.head < 2 ^ 32 → (∃ u ∈ s.core.dsp.tasks, u.q = q) → (∀ u ∈ s.core.dsp.tasks, u.q = q → u.begun ≠ []) →
        ∃ t, exec (.queueDisable q) s = .next t ∧ t.core.queue q = { x with state := .draining } ∧ others t ∧ t.core.dsp.tasks = s.core.dsp.tasks)
    ∧ (x.state = .halted → ∃ t, exec (.queueResume q) s = .next t ∧ t.core.queue q = { x with state := .active } ∧ others t)
    ∧ (∀ c ∈ [(1, Instr.queueEnable q, [QState.active, .draining, .halted]), (2, .queueDisable q, [.disabled, .draining]),
          (3, .queueResume q, [.disabled, .active, .draining])], x.state ∈ c.2.2 →
        ∃ t, exec c.2.1 s = .next t ∧ s.raised t pgDsp Ev.qcmdBad c.1 x.state.code 0 q ∧ ∀ p, t.core.queue p = s.core.queue p)
    ∧ (∀ tail, x.state = .active ∨ x.state = .halted → x.tailsrc = false →
        let full := (x.head + (tail % 2 ^ 19 + 2 ^ 32 - x.head) % 2 ^ 19) % 2 ^ 32
        x.head < 2 ^ 32 → x.free < 2 ^ 32 → (full + 2 ^ 32 - x.free) % 2 ^ 32 ≤ 2 ^ x.rlog →
        ∃ t, exec (.dspDoorbell q tail) s = .next t ∧ (t.core.queue q).tail = full ∧ (t.core.queue q).state = x.state ∧ (t.core.queue q).head = x.head ∧ others t)

/-- R310, R317: EV_CMD sets the selected event counter to EV_ARG or adds it, stopping at 2^64 - 1, and touches no other counter; a read of EV_VAL_LO
answers the low half and takes the high half in the same instant. -/
def Obligations.EventCounters : Prop :=
  ∀ (s : State), s.Acts pgDsp → s.Wf →
    let c := s.core.fld pgDsp 0x130 0 16
    let v := s.core.reg64 pgDsp 0x13C 0x140
    let sets := fun (i : Instr) (w : Nat) => ∃ t, exec i s = .next t ∧ t.core.ctr c = w ∧ (∀ d, d ≠ c → t.core.ctr d = s.core.ctr d)
      ∧ (s.NoTails → (∀ u ∈ s.core.dsp.tasks, u.ready = true) → t = { s with core := { s.core with dsp := { s.core.dsp with counters := t.core.dsp.counters } } })
    sets .evCmdSet v ∧ sets .evCmdAdd (min (s.core.ctr c + v) (2 ^ 64 - 1))
    ∧ (let m := { s.core with dsp := { s.core.dsp with evHi := s.core.ctr c / 2 ^ 32 } }
      exec .evValLoRead s = .next { s with core := m.send (.cpl (.data (leBytes 4 (s.core.ctr c % 2 ^ 32)))) })

/-- R287, R289, R292, R295, R296: dispatch reads the descriptor at HEAD of an ACTIVE queue where TAIL has passed it, once its last task is placed; HEAD rises
and the queue's entry is used; a task becomes ready when its waits
hold. A descriptor with a bad field is reported and halts the queue.
It rests on the model's readings of log entry 22. -/
def Obligations.TasksRead : Prop :=
  ∀ (s : State) (q : Nat), s.Wf →
    let x := s.core.queue q
    let m := s.core.setQueue q { x with head := (x.head + 1) % 2 ^ 32 }
    (∀ b, s.core.on pgDsp = true → x.state = .active → covered x.head x.tail = true → s.core.mayRead q = true → m.load .dispatch (x.slotOf x.head) 128 = (m, .ok b) →
      (taskDescBad b = none → (∀ n ∈ (TaskDesc.ofBytes b).engines, (s.core.slotOf n).isSome) → ∃ t, exec (.taskRead q) s = .next t
        ∧ t.core.dsp.tasks = s.core.dsp.tasks ++ [({ q, idx := x.head, desc := TaskDesc.ofBytes b } : Task)] ∧ t.core.queue q = { x with head := (x.head + 1) % 2 ^ 32, used := if x.cached then s.core.dsp.seq + 1 else x.used })
      ∧ (∀ byte, (∀ u ∈ s.core.dsp.tasks, u.q = q → u.idx ≠ x.head) → taskDescBad b = some byte → ∃ t, exec (.taskRead q) s = .next t ∧ t.core.dsp.tasks = s.core.dsp.tasks
        ∧ s.raised t pgDsp Ev.taskDescBad x.head byte 0 q ∧ (t.core.queue q).state = .halted ∧ (t.core.queue q).errCode = Ev.taskDescBad
        ∧ (t.core.queue q).errIdx = x.head ∧ (t.core.queue q).tasks = (x.tasks + 1) % 2 ^ 32))
    ∧ (covered x.head x.tail = false → exec (.taskRead q) s = .next s)
    ∧ (∀ i u, s.core.task? q i = some u →
        (u.ready = false → (∀ w ∈ u.desc.waits, w.2 ≤ s.core.ctr w.1) → ∃ t, exec (.taskReady q i) s = .next t
          ∧ t.core.task? q i = some { u with ready := true, readySeq := s.core.dsp.seq + 1 }
          ∧ (∀ p j, (p, j) ≠ (q, i) → t.core.task? p j = s.core.task? p j)
          ∧ t = { s with core := { s.core with dsp := { s.core.dsp with seq := s.core.dsp.seq + 1, tasks := t.core.dsp.tasks } } })
        ∧ (u.ready = true ∨ (∃ w ∈ u.desc.waits, s.core.ctr w.1 < w.2) → exec (.taskReady q i) s = .next s))

/-- R238, R263, R297 to R301, R304: a ready task that no gang ties is placed on a free engine of its set, whose clock starts, with the words of its image loaded from index 0 of the
inactive bank unless a bank holds it; KERNEL_START then gives the engine the registers of a kernel start.
It rests on the model's readings of log entries 10 and 56. -/
def Obligations.KernelsStart : Prop :=
  ∀ (s : State) (q i n k : Nat) (u : Task), s.core.slotOf n = some k → k < s.core.engs.length → s.core.task? q i = some u → s.core.dspRuns = true →
    u.desc.gang = false → s.core.logicalOf k = n →
    let e := s.eng k
    let d := u.desc
    (s.NoBoundary → s.core.couldTake u n = true → s.core.engFree n = true → (∀ v ∈ s.core.dsp.tasks, s.core.couldTake v n = true → s.core.before v u = false) →
      d.opt = false → (e.st = .sleep → s.core.dsp.wakes = [] ∧ s.core.staggerOver = true) →
      ∀ bs, (e.images.any (fun x => x.holds d) = true ∨ s.core.load .dispatch d.kaddr (8 * d.klen) = (s.core, .ok bs)) → ∃ t, exec (.taskPlace q i n) s = .next t
        ∧ (t.eng k).st = .idle ∧ (t.eng k).task = some (q, i) ∧ (t.eng k).faultCode = 0 ∧ (t.eng k).faultPc = 0 ∧ (t.eng k).suspect = false
        ∧ (t.eng k).s = e.s ∧ (t.eng k).v = e.v ∧ (t.eng k).active = e.active ∧ (∀ j, j ≠ k → t.eng j = s.eng j) ∧ (∀ a, t.byte a = s.byte a)
        ∧ (∃ v, t.core.task? q i = some v ∧ v.placed = u.placed ++ [n] ∧ v.loaded = (u.loaded || !e.images.any (fun x => x.holds d)))
        ∧ (if e.images.any (fun x => x.holds d) then (t.eng k).im = e.im ∧ (t.eng k).images = e.images
           else (t.eng k).images = e.images.set (1 - e.active) ⟨d.kid, d.kaddr, d.klen⟩ ∧ (t.eng k).im.getD e.active [] = e.im.getD e.active []
            ∧ (1 - e.active < e.im.length → spWf 0#64 (e.im.getD (1 - e.active) []) = true → ∀ j, (t.eng k).imWord (1 - e.active) j =
                if j < bs.length / 8 then BitVec.ofNat 64 (ofLe ((bs.drop (8 * j)).take 8)) else e.imWord (1 - e.active) j)))
    ∧ (e.task = some (q, i) → e.st = .idle → s.core.ptPending k = false → e.moving = false → n ∈ u.placed → n ∉ u.begun → ∃ t r, exec (.kernelStart n) s = .next t
        ∧ t.eng k = r ∧ r.st = .run ∧ r.pc = d.entry ∧ r.active = (if (e.images.getD e.active {}).holds d then e.active else 1 - e.active) ∧ r.seed = s.core.rngSeed
        ∧ (∀ j, r.getS j = if j = 1 then BitVec.ofNat 64 (d.engines.findIdx (· = n)) else if j = 2 then BitVec.ofNat 64 d.engines.length
            else if j = 3 then BitVec.ofNat 64 n else if j = 0 ∨ d.args.length + 4 ≤ j then 0#64 else d.args.getD (j - 4) 0#64)
        ∧ (∀ v, v < 64 → r.getV v = List.replicate 128 0#32) ∧ (∀ p, p < 8 → r.getP p = BitVec.allOnes 128) ∧ (∀ a, a < 4 → r.getLa a = {})
        ∧ (∀ x, r.getTile x = none) ∧ r.sb = List.replicate 2 {} ∧ r.loops = [] ∧ r.ctx = {} ∧ r.nstat = 0#16 ∧ r.im = e.im ∧ r.tags = List.replicate 16 {}
        ∧ (∀ j, j ≠ k → t.eng j = s.eng j) ∧ (∀ a, t.byte a = s.byte a)
        ∧ ∃ v, t.core.task? q i = some v ∧ v.begun = u.begun ++ [n] ∧ (u.begun = [] → v.tStart = s.core.time))

/-- R30, R31, R304, R305: the clock of an engine that holds no task stops, and starts again for the oldest request when the spacing allows it; stopping and starting
change nothing of the engine but ENG_STATUS.
It rests on the model's readings of log entry 2. -/
def Obligations.EngineClocks : Prop :=
  ∀ (s : State) (p sl : Nat),
    let k := 52 * p + sl
    let e := s.eng k
    (e.st = .idle → e.task = none → s.core.reservedFor (s.core.logicalOf k) = none → s.core.ptPending k = false → e.moving = false → k ∉ s.core.pwr.loaded →
      exec (.engineClockStop p sl) s = .next (s.withEng k { e with st := .sleep }))
    ∧ (e.task ≠ none → exec (.engineClockStop p sl) s = .next s)
    ∧ (∀ rest, k < s.core.engs.length → s.core.dsp.wakes = k :: rest → k ∉ rest → s.core.staggerOver = true → e.st = .sleep →
        ∃ t, exec (.engineClockStart p sl) s = .next t ∧ t.eng k = { e with st := .idle } ∧ (∀ j, j ≠ k → t.eng j = s.eng j) ∧ t.core.dsp.wakes = rest
          ∧ t.core.dsp.lastWake = some s.core.time)

/-- R293, R306, R307, R308, R312: a task whose kernels have ended completes: its record is written, its signals are applied where it has no fault, TASKS and DONE
follow, a fault halts the queue with the task's first fault, and dispatch forgets the task. Here for a task that is not suspect or redone, and no TAIL that
follows a counter.
It rests on the model's readings of log entries 22 and 42. -/
def Obligations.TasksComplete : Prop :=
  ∀ (s : State) (q i : Nat) (u : Task), s.Wf → s.NoTails → s.NoBoundary → s.core.task? q i = some u → u.isOver = true → u.suspect = none → u.redone = false →
    u.begun ≠ [] → (∀ v ∈ s.core.dsp.tasks, v ≠ u → (v.q, v.idx) ≠ (q, i)) →
    let d := u.desc
    let x := s.core.queue q
    let rec' := x.recAt i
    ∃ t, exec (.taskComplete q i) s = .next t ∧ t.core.task? q i = none ∧ (t.core.queue q).tasks = (x.tasks + 1) % 2 ^ 32
      ∧ (u.faultCode ≠ 0 → (t.core.queue q).errCode = u.faultCode ∧ (t.core.queue q).errIdx = i ∧ (x.state = .active → (t.core.queue q).state = .halted)
          ∧ ∀ c, t.core.ctr c = s.core.ctr c)
      ∧ (u.faultCode = 0 → (x.state ≠ .draining → (t.core.queue q).state = x.state) ∧ (s.core.clipHolds u = false → ∀ c, t.core.ctr c =
          d.sigs.foldl (fun v g => if g.counter = c ∧ ¬ (g.remote = true ∧ g.modid ≠ s.core.modid) ∧ g.inc ≠ 0 then min (v + g.inc) (2 ^ 64 - 1) else v) (s.core.ctr c)))
      ∧ (x.doneIdx = i → s.core.dsp.done = [] → (t.core.queue q).doneIdx = (i + 1) % 2 ^ 32)
      ∧ (rec' + 32 ≤ s.core.memTop → rec' % 32 = 0 → (∀ a, rec' / 65536 = a → s.core.isProt a = false) → (∀ y ∈ s.core.stks, y.st ≠ .failed) → s.core.isProt (s.core.qtAddr q / 65536) = false →
          (s.core.qtAddr q + 64 ≤ rec' ∨ rec' + 32 ≤ s.core.qtAddr q) → s.core.dsp.done = [] → s.core.clipHolds u = false →
          ∀ j b, (recordBytes i (u.faultCode ≠ 0) false false u.loaded u.faultCode u.tStart u.tEnd u.faultEng d.engines.length)[j]? = some b → t.byte (rec' + j) = b % 256)

/-! The epoch controller -/

/-- R334, R335, R342, R345, R347 to R349, R477, R487: the commands of EP_CMD while AUTO_SEAL is off. SEAL, SEAL_SNAP and RERUN open a step; RESOLVE_COMMIT and SKIP end one and add 1 to
RNG_EPOCH; RESOLVE_ROLLBACK decides ROLLBACK; ABORT_SNAP ends the snapshot, and so does a seal while requests to host memory are held (R578). A command that the state does not allow, or a seal while the log unit is not enabled, is reported
and discarded; a seal waits while the mirror's buffer is full.
It rests on the model's readings of log entries 72 and 85. -/
def Obligations.EpochCommands : Prop :=
  ∀ (s : State), s.Wf → s.Acts pgEp → s.NoTails → s.core.flag pgEp 0x100 2 = false →
    let e := s.core.ep
    let ready := s.core.logOn = true ∧ s.core.lg.stall = false
    let done := s.core.fld pgEp 0x108 0 16
    let count := s.core.fld pgEp 0x10C 0 16
    let opens := fun (i : Instr) (step : Nat) (snap rerun : Bool) => ready → (∀ v ∈ e.votes, v.kind = 3 → v.ord ≠ (e.ord + 1) % 2 ^ 16) → ∃ t, exec i s = .next t
      ∧ t.core.ep.st = .opened ∧ t.core.ep.step = step ∧ t.core.ep.sh = 0#32 ∧ t.core.ep.shSlice = e.shSlice ∧ t.core.ep.published = false ∧ t.core.ep.contributed = false
      ∧ t.core.ep.decision = .none ∧ t.core.ep.watchdog = true ∧ t.core.ep.ord = (e.ord + 1) % 2 ^ 16 ∧ (∀ p ∈ t.core.ep.pages, p.2.eslot = none)
      ∧ t.core.ep.snapActive = (if snap then s.core.on pgSnap && s.core.outbound else e.snapActive)
      ∧ (∀ c, t.core.ctr c = let v := if c = done then 0 else s.core.ctr c
          if c = count then min (v + 1) (2 ^ 64 - 1) else v)
      ∧ t.core.clip.tau = s.core.clip.tauPending.getD s.core.clip.tau ∧ t.core.clip.tauPending = none ∧ (t.core.clip.valid = true → t.core.clip.step ≠ step)
      ∧ t.core.ce.cla = List.replicate 16 {} ∧ t.core.lg.next = (s.core.lg.next + 1) % 2 ^ 32 ∧ t.core.lg.rerun = rerun
      ∧ t.core.lg.attempt = (if rerun then min (s.core.lg.attempt + 1) 0xFFFF else 0) ∧ t.core.rngEpoch = s.core.rngEpoch
    let ends := fun (i : Instr) (outcome : Nat) => s.core.logOn = true → ∃ t, exec i s = .next t ∧ t.core.ep.st = .idle ∧ t.core.ep.step = e.step ∧ t.core.ep.outcome = outcome
      ∧ t.core.ep.snapActive = e.snapActive ∧ t.core.rngEpoch = (s.core.rngEpoch + 1) % 2 ^ 32 ∧ t.core.js.chains = [] ∧ t.core.ts.chains = []
      ∧ (∀ c, t.core.ctr c = if outcome = 1 ∧ c = done then 0 else s.core.ctr c) ∧ t.core.lg.items = (if outcome = 1 then [] else s.core.lg.items)
      ∧ (outcome = 1 → t.core.ep.watchdog = false) ∧ (outcome = 3 → t.core.lg.next = (s.core.lg.next + 1) % 2 ^ 32)
    let refused := fun (i : Instr) (cmd why : Nat) => ∃ t, exec i s = .next t ∧ s.raised t pgEp Ev.epochCmdBad cmd e.st.code why 0 ∧ s.core.Quiet t.core
    (e.st = .idle → opens .seal s.core.rngEpoch false false ∧ (e.snapActive = false → opens .sealSnap s.core.rngEpoch true false
        ∧ (ready → s.core.on pgSnap = true → s.core.outbound = false → ∃ t, exec .sealSnap s = .next t ∧ s.raised t pgSnap Ev.snapHostError s.core.rngEpoch 3 0 0)))
    ∧ (e.st = .rolledBack → opens .rerun e.step false true ∧ ends .skip 3)
    ∧ (e.st = .prepared → ends .resolveCommit 1 ∧ ∃ t, exec .resolveRollback s = .next t
        ∧ t.core.ep = { e with decision := .rollback, st := .rollingBack, restoring := false, watchdog := false, published := true }
        ∧ t = { s with core := { s.core with ep := t.core.ep, engs := t.core.engs } }
        ∧ ∀ k d, (s.eng k).wait = .sh d e.step none → t.eng k = { s.eng k with wait := .sh d e.step (some e.shSlice.toNat) })
    ∧ (e.snapActive = true → ∃ t, exec .abortSnap s = .next t ∧ s.raised t pgEp Ev.snapPoolAbort e.step s.core.sd.drained.length s.core.snapLeft 0
        ∧ t.core.sd = { s.core.sd with active := false, aborted := true } ∧ t.core.ep = { e with snapActive := false, pages := t.core.ep.pages }
        ∧ (∀ p ∈ t.core.ep.pages, p.2.eslot.isSome = true ∧ p.2.s = .none) ∧ ∀ a, s.core.OutsidePool e.pages a → t.byte a = s.byte a)
    ∧ (∀ c ∈ [(1, Instr.seal, [EpState.idle]), (2, .sealSnap, [.idle]), (3, .rerun, [.rolledBack]), (4, .skip, [.rolledBack]), (5, .resolveCommit, [.prepared]),
        (6, .resolveRollback, [.prepared])], e.st ∉ c.2.2 → refused c.2.1 c.1 0)
    ∧ (e.snapActive = false → refused .abortSnap 7 0) ∧ (e.st = .idle → e.snapActive = true → refused .sealSnap 2 0)
    ∧ (s.core.logOn = false → (e.st = .idle → refused .seal 1 1) ∧ (e.st = .rolledBack → refused .rerun 3 1))
    ∧ (s.core.logOn = true → s.core.lg.stall = true → e.st = .idle → ∃ t, exec .seal s = .next t ∧ t.core.ep = e ∧ t.core.lg = { s.core.lg with delayed := s.core.lg.delayed ++ [1] })

/-- R339 to R344: the vote. The contribution goes out when the step is update-done, a veto when the health word is not 0; phase 1 decides COMMIT, and starts phase 2, only when no
word is set, every module is update-done and all name the same STEP and RNG_EPOCH; COMMIT follows when phase 2 is complete. Messages of a combination go where the recursive doubling sends them,
a veto on the broadcast schedule (R425, R430). The watchdog vetoes an OPEN step and turns VOTING to PREPARED.
It rests on the model's readings of log entries 14 and 93. -/
def Obligations.EpochVote : Prop :=
  ∀ (s : State), s.Wf →
    let e := s.core.ep
    let told := fun (t : State) (kind : Nat) => ∃ l, t.core.rt.msgs = s.core.rt.msgs ++ l
      ∧ (∀ x ∈ l, ∃ p ∈ s.core.voteOuts, ∃ v, s.core.voteAt kind p.1 = some v ∧ (kind, p.1) ∉ e.given ∧ x.type = 6 ∧ x.dst = s.core.voters.getD p.2 0 ∧ x.arg / 2 ^ 8 % 256 = 4
          ∧ x.arg / 2 ^ 48 % 65536 = p.1 ∧ x.data = v.bytes)
      ∧ ∀ p ∈ s.core.voteOuts, ∀ v, s.core.voteAt kind p.1 = some v → (kind, p.1) ∉ e.given → ∃ x ∈ l, x.dst = s.core.voters.getD p.2 0 ∧ x.arg / 2 ^ 48 % 65536 = p.1 ∧ x.data = v.bytes
    let rolls := fun (t : State) (w : W32) => t.core.ep.st = .rollingBack ∧ t.core.ep.decision = .rollback ∧ t.core.ep.restoring = false ∧ t.core.ep.published = true
      ∧ t.core.ep.shSlice = w ∧ t.core.ep.step = e.step ∧ ∀ a, t.byte a = s.byte a
    (e.st = .opened → e.contributed = false →
      (e.sh ≠ 0#32 → ∃ t, exec .epContribution s = .next t ∧ rolls t (e.sh ||| s.core.joinedWord) ∧ t.core.ep.contributed = true ∧ t.core.ep.vetoed = true
        ∧ (e.vetoed = false → ∃ l, t.core.rt.msgs = s.core.rt.msgs ++ l ∧ l.map (·.dst) = s.core.nexts s.core.voters s.core.modid
            ∧ ∀ x ∈ l, x.type = 6 ∧ x.data = (s.core.ownVote 3 e.sh 0).bytes ∧ x.arg / 2 ^ 8 % 256 = 5))
      ∧ (e.sh = 0#32 → s.core.updateDone = true → ∃ t, exec .epContribution s = .next t ∧ t.core.ep = { e with contributed := true, given := t.core.ep.given } ∧ told t 1)
      ∧ (e.sh = 0#32 → s.core.updateDone = false → exec .epContribution s = .next s))
    ∧ (e.st ≠ .opened ∨ e.contributed = true → exec .epContribution s = .next s)
    ∧ (e.st = .opened → e.contributed = true → ∀ v, s.core.voteResult 1 = some v →
        let all := v.word = 0#32 ∧ s.core.voters.length ≤ v.upd ∧ v.skew = false
        (all → ∃ t, exec .votePhase1Complete s = .next t ∧ t.core.ep = { e with decision := .commit, st := .voting, shSlice := 0#32, published := true, given := t.core.ep.given } ∧ told t 2)
        ∧ (¬ all → ∃ t, exec .votePhase1Complete s = .next t ∧ rolls t v.word)
        ∧ (v.skew = true → ∃ t, exec .votePhase1Complete s = .next t ∧ s.raised t pgEp Ev.epochVoteSkew e.step v.step s.core.rngEpoch v.epoch)
        ∧ (s.core.voteAt 1 dblTop = some v → ∀ x ∈ dblIn s.core.voters.length (rankOf s.core.voters s.core.modid), ∃ u, s.core.voteFrom 1 x = some u
            ∧ (v.word = 0#32 → u.word = 0#32) ∧ (v.skew = false → u.skew = false ∧ u.step = e.step ∧ u.epoch = s.core.rngEpoch)))
    ∧ (e.st ≠ .opened ∨ e.contributed = false ∨ s.core.voteResult 1 = none → exec .votePhase1Complete s = .next s)
    ∧ (e.st = .voting → e.decision = .commit → (s.core.voteResult 2).isSome = true → s.NoTails → s.core.flag pgEp 0x100 2 = false → ∃ t, exec .commit s = .next t
        ∧ t.core.ep.st = .idle ∧ t.core.ep.outcome = 1 ∧ t.core.ep.watchdog = false ∧ t.core.rngEpoch = (s.core.rngEpoch + 1) % 2 ^ 32 ∧ t.core.js.chains = [] ∧ t.core.ts.chains = []
        ∧ t.core.ctr s.core.doneEvc = 0 ∧ (∀ c, c ≠ s.core.doneEvc → t.core.ctr c = s.core.ctr c))
    ∧ (e.st ≠ .voting ∨ e.decision ≠ .commit ∨ s.core.voteResult 2 = none → exec .commit s = .next s)
    ∧ ((∀ k, (s.eng k).wait = .none) → e.watchdog = true →
        (e.st = .opened → ∃ t, exec .stepWatchdogExpiry s = .next t ∧ rolls t (e.sh ||| shWatchdog ||| s.core.joinedWord)
          ∧ s.raised t pgEp Ev.epochWatchdog e.step 1 (s.core.reg pgEp 0x104) 0)
        ∧ (e.st = .voting → ∃ t, exec .stepWatchdogExpiry s = .next t ∧ t.core.ep = { e with st := .prepared, watchdog := false, sh := e.sh ||| shWatchdog, vetoed := true }
          ∧ s.raised t pgEp Ev.epochPrepared e.step 0 0 0))
    ∧ (e.watchdog = false ∨ (e.st ≠ .opened ∧ e.st ≠ .voting) → exec .stepWatchdogExpiry s = .next s)

/-- R329, R331, R333, R334, R346, R347, R279: a write to a protected page is admitted while a step is OPEN or VOTING, after the page's old contents have been copied to a free slot where tag E holds none; out of
a step, or with no slot left, it is refused and reported and memory is unchanged. The page-state entry and the directory follow (R329). ROLLBACK stops new copies, and its completion puts every copied page back. CLIP_REDO puts back the pages
that optimiser tasks have written.
It rests on the model's readings of log entries 15, 41, 62 and 96. -/
def Obligations.ProtectedPages : Prop :=
  ∀ (s : State), s.Wf →
    let e := s.core.ep
    let apart := (e.pages.map (·.1)).Nodup
      ∧ (∀ p ∈ e.pages, ∀ q ∈ e.pages, ∀ x, q.2.eslot = some x → s.core.slotAddr x + 65536 ≤ 65536 * p.1 ∨ 65536 * p.1 + 65536 ≤ s.core.slotAddr x)
      ∧ ∀ p ∈ e.pages, ∀ i, i < 65536 → s.core.OutsidePool e.pages (65536 * p.1 + i) ∧ ∀ x, p.2.eslot = some x → s.core.OutsidePool e.pages (s.core.slotAddr x + i)
    let copied := fun (t : State) (sel : PageSt → Bool) =>
      (∀ p ∈ e.pages, sel p.2 = true → ∀ x, p.2.eslot = some x → ∀ i, i < 65536 → t.byte (65536 * p.1 + i) = s.byte (s.core.slotAddr x + i))
      ∧ ∀ b, (∀ p ∈ e.pages, sel p.2 = true → p.2.eslot.isSome = true → b < 65536 * p.1 ∨ 65536 * p.1 + 65536 ≤ b) → s.core.OutsidePool e.pages b → t.byte b = s.byte b
    (∀ (init num a : Nat) (data : List Byte), (init = 1 → (s.core.slotOf num).isSome) → a + data.length ≤ s.core.memTop → s.core.memTop ≤ 0x28000000000 →
        a % 65536 + data.length ≤ 65536 → data ≠ [] → (∀ i ∈ s.core.stks, i.st ≠ .failed) →
      let pg := a / 65536
      let p := s.core.pageSt pg
      let stored := fun (t : State) => ∀ i v, data[i]? = some v → t.byte (a + i) = v.toNat
      let kept := fun (t : State) (x : Nat) => ∀ i, i < 65536 → t.byte (x + i) = s.byte (pg * 65536 + i)
      let writes := exec (.protectedWrite init num a data) s
      let log := s.core.initOf init num = .snapLog ∧ e.st ∉ [.opened, .voting]
      (s.core.isProt pg = false ∨ log → ∃ t, writes = .next t ∧ stored t ∧ (∀ b, b < a ∨ a + data.length ≤ b → t.byte b = s.byte b) ∧ t.core.ep = e)
      ∧ (s.core.isProt pg = true → ¬ log → e.st ∈ [.idle, .prepared, .rolledBack] ∨ (e.st = .rollingBack ∧ e.restoring = true) → ∃ t, writes = .next t ∧ s.core.Quiet t.core
          ∧ s.raised t pgEp Ev.epochNotOpen pg e.st.code e.step (s.core.initWord (s.core.initOf init num)))
      ∧ (s.core.isProt pg = true → ¬ log → e.st ∈ [.opened, .voting] ∨ (e.st = .rollingBack ∧ e.restoring = false) → p.s ≠ .pending →
          (p.eslot.isSome = true → ∃ t, writes = .next t ∧ stored t ∧ (∀ b, b < a ∨ a + data.length ≤ b → t.byte b = s.byte b) ∧ t.core.ep = e)
          ∧ (∀ x, p.eslot = none → s.core.freeSlot = some x → s.core.badGranules (pg * 65536) = [] → s.core.slotAddr x + 65536 ≤ pg * 65536 ∨ pg * 65536 + 65536 ≤ s.core.slotAddr x →
              (∀ i, i < 65536 → s.core.OutsidePool [(pg, {})] (s.core.slotAddr x + i)) → ∃ t, writes = .next t ∧ stored t
              ∧ kept t (s.core.slotAddr x) ∧ (t.core.pageSt pg).eslot = some x ∧ (∀ q, q ≠ pg → t.core.pageSt q = s.core.pageSt q)
              ∧ ∀ b, (b < a ∨ a + data.length ≤ b) → (b < s.core.slotAddr x ∨ s.core.slotAddr x + 65536 ≤ b) → s.core.OutsidePool [(pg, { eslot := some x })] b → t.byte b = s.byte b)
          ∧ (p.eslot = none → s.core.freeSlot = none → e.snapActive = false → ∃ t, writes = .next t ∧ (∀ b, t.byte b = s.byte b) ∧ (t.core.pageSt pg).eslot = none
              ∧ s.raised t pgEp Ev.epochPoolExhausted pg (s.core.reg pgEp 0x11C) e.step (s.core.initWord (s.core.initOf init num))
              ∧ (e.contributed = false → t.core.ep.sh = e.sh ||| shPool))))
    ∧ (e.st = .rollingBack → e.restoring = false → ∃ t, exec .rollback s = .next t ∧ t.core.ep = { e with restoring := true } ∧ (∀ a, t.byte a = s.byte a)
        ∧ (s.core.logOn = true → t.core.lg.items = [] ∧ t.core.lg.clip = none))
    ∧ (e.st ≠ .rollingBack ∨ e.restoring = true → exec .rollback s = .next s) ∧ (e.st ≠ .rollingBack ∨ e.restoring = false → exec .rollbackComplete s = .next s)
    ∧ (e.st = .rollingBack → e.restoring = true → s.NoTails → s.core.logOn = false → s.core.fld pgEp 0x100 0 2 = 0 → s.core.dsp.done = [] →
        (∀ q ∈ s.core.dsp.queues, q.2.free = q.2.doneIdx) → apart →
        ∃ t, exec .rollbackComplete s = .next t ∧ t.core.ep.st = .rolledBack ∧ t.core.ep.outcome = 2 ∧ t.core.ep.restoring = false ∧ t.core.js.chains = [] ∧ t.core.ts.chains = []
          ∧ t.core.ctr s.core.doneEvc = 0 ∧ (∀ p ∈ t.core.ep.pages, p.2.eslot = none)
          ∧ copied t (fun _ => true)
          ∧ s.raised t pgEp Ev.epochRollback e.step e.shSlice.toNat (e.pages.filter (fun p => p.2.eslot.isSome)).length 0)
    ∧ (s.core.clip.redoPending = true → e.st = .opened → s.core.optQuiet s.core.clip.step = true → s.core.dsp.redo = [] → apart → s.core.poison = [] →
        (∀ i ∈ s.core.stks, i.st ≠ .failed) → ∃ t, exec .clipRedo s = .next t ∧ t.core.clip = { s.core.clip with redoPending := false } ∧ t.core.ep.st = .opened ∧ t.core.dsp.stopOpt = none
          ∧ (∀ p ∈ t.core.ep.pages, p.2.opt = true → p.2.eslot = none) ∧ copied t (·.opt) ∧ s.raised t pgEp Ev.clipRedo s.core.clip.step s.core.clip.factor s.core.clip.norm 0x1FF)
    ∧ (s.core.clip.redoPending = false ∨ e.st ≠ .opened ∨ s.core.optQuiet s.core.clip.step = false → exec .clipRedo s = .next s)

/-! Stacks, snapshots, the input log -/

/-- R266, R323 to R326, R353, R338, R487, R499: a patrol scrub counts what it corrects and reports what it cannot; a lost stack is FAILED and stops dispatch; STK_CMD.FENCE asks for a fence; LG_SHSET joins bits
[31:16] into the open step's word; LG_HACK frees records of the mirror; RNG_KAT.RUN tests every powered unit, one that runs a kernel when it ends.
It rests on the model's readings of log entry 8. -/
def Obligations.StacksAndLog : Prop :=
  ∀ (s : State), s.Wf →
    let e := s.core.ep
    (∀ i off, i < 32 → s.core.stks.length = 32 →
      let k := s.core.stk i
      let a := s.core.stackAddr i off
      (s.core.on (pgStack i) = true → s.core.flag (pgStack i) 0x104 0 = true → k.st = .ok → s.core.stackOf a = some i → a < 0x28000000000 → s.core.nStacks ≠ 0 →
        (s.core.poison.contains (a / 64) = false → exec (.patrolScrub i off 0 false) s = .next s
          ∧ exec (.patrolScrub i off 0 true) s = .next { s with core := s.core.bump (pgStack i) 0x188 1 }
          ∧ ∃ t, exec (.patrolScrub i off 1 false) s = .next t ∧ t.core.reg (pgStack i) 0x180 = cap32 (s.core.reg (pgStack i) 0x180 + 1) ∧ (t.core.stk i).lastCe = off ∧ t.core.mem = s.core.mem
            ∧ (let total := ((k.frames.filter (fun f => s.core.felt.frame < f.1 + 1000)).map (·.2)).sum + k.frameCe + 1
              let limit := s.core.fld (pgStack i) 0x104 16 16
              if limit < total then (t.core.stk i).st = .degraded ∧ (t.core.stk i).fencePend = (k.fencePend || s.core.flag pgCal 0x104 5) ∧ s.raised t (pgStack i) Ev.stackCeStorm i limit 0 0 else (t.core.stk i).st = .ok))
        ∧ ∃ t, exec (.patrolScrub i off 2 false) s = .next t ∧ (a / 64) ∈ t.core.poison ∧ t.core.mem = s.core.mem ∧ (t.core.stk i).errAddr = s.core.stackOff a
            ∧ s.raised t (pgStack i) Ev.memUe i (s.core.stackOff a % 2 ^ 32) (s.core.stackOff a / 2 ^ 32) e.step)
      ∧ (∀ cause, k.st = .ok ∨ k.st = .degraded → ∃ t, exec (.stackPhyLoss i cause) s = .next t ∧ t.core.stk i = { k with st := .failed, fencePend := true } ∧ t.core.dsp.stopped = true
          ∧ s.raised t (pgStack i) Ev.stackFailed i cause e.step 0 ∧ (∀ j, j ≠ i → t.core.stk j = s.core.stk j)
          ∧ (e.st = .opened → t.core.ep.st = .rollingBack) ∧ (e.st = .opened ∨ e.st = .voting → t.core.ep.sh = e.sh ||| shMemUe))
      ∧ (∀ cause, k.st = .failed ∨ k.st = .fenced → exec (.stackPhyLoss i cause) s = .next s)
      ∧ (s.Acts (pgStack i) → exec (.stkCmdFence i) s = .next { s with core := s.core.setStk i { k with fencePend := true } }))
    ∧ (∀ v, s.Acts pgLog →
        let bits := BitVec.ofNat 32 (v % 2 ^ 32 / 65536 * 65536)
        (e.isOpen = true → e.published = false → e.contributed = false → exec (.lgShset v) s = .next { s with core := { s.core with ep := { e with sh := e.sh ||| bits } } })
        ∧ (e.isOpen = true → e.published = false → e.contributed = true → ∃ t, exec (.lgShset v) s = .next t ∧ t.core.ep = { e with shLate := e.shLate ||| bits }
            ∧ s.raised t pgEp Ev.epochLateHealth bits.toNat e.step e.step 0)
        ∧ (e.published = true → ∃ t, exec (.lgShset v) s = .next t ∧ s.core.Quiet t.core ∧ s.raised t pgLog Ev.shLate e.step bits.toNat 0 0x1FF))
    ∧ (∀ v, s.Open pgLog → s.core.lg.delayed = [] →
        let kept := s.core.lg.mirrored.filter (fun x => (x.1 + 2 ^ 32 - v % 2 ^ 32) % 2 ^ 32 < 2 ^ 31)
        let n := 2 ^ s.core.fld pgLog 0x118 0 5
        let at' := s.core.reg64 pgLog 0x110 0x114 + 64 * (s.core.lg.midx % n)
        (s.core.lg.mbuf = [] → exec (.lgHackWrite v) s = .next { s with core := { s.core.setReg pgLog 0x11C v with lg := { s.core.lg with mirrored := kept, stall := false } } })
        ∧ (∀ b, s.core.lg.mbuf = [b] → s.core.outbound = true → (s.core.lg.midx + 2 ^ 32 - v % 2 ^ 32) % 2 ^ 32 < n → ∃ t, exec (.lgHackWrite v) s = .next t
            ∧ t.core.out = .hostWrite at' b :: s.core.out ∧ t.core.lg = { s.core.lg with mbuf := [], stall := false, midx := (s.core.lg.midx + 1) % 2 ^ 32, mirrored := kept ++ [(s.core.lg.midx, b)] }))
    ∧ (∀ wrong, s.Open pgRng →
        let busy := (List.range 312).filter (fun k => (s.eng k).st = .run)
        ∃ t, exec (.rngKatRun wrong) s = .next t ∧ t.core.kat.wait = busy.map (katOf wrong) ∧ t.core.kat.done = busy.isEmpty ∧ s.core.Quiet { t.core with kat := s.core.kat }
          ∧ (wrong = [] → t.core.kat.bad = false ∧ t.core.kat.pass = busy.isEmpty)
          ∧ (∀ k v, k < 312 → (s.eng k).st ∉ [.run, .off, .fenced] → v = (katOf wrong k).2.1 → v ≠ katRight → t.core.kat.bad = true ∧ t.core.kat.pass = false
              ∧ s.raised t pgRng Ev.rngKatFail 1 (v.toNat % 2 ^ 32) (v.toNat / 2 ^ 32) (s.core.logicalOf k)))

/-- R329, R348, R488 to R491: the snapshot DMA checks its segments and writes the manifest with COMPLETE = 0, drains the protected pages one by one, from the shadow slot of one that has been written since the seal and else from the
page itself, and ends with the check table and the manifest with COMPLETE = 1. Module memory changes in the page-state entries and the directory alone (R329).
It rests on the model's readings of log entries 24, 62, 73 and 96. -/
def Obligations.Snapshots : Prop :=
  ∀ (s : State) (b : List Nat), s.Wf →
    let d := s.core.sd
    let n := s.core.fld pgSnap 0x108 0 12
    let segs := segsOf b n
    s.core.load .snapLog (s.core.reg64 pgSnap 0x100 0x104) (16 * n) = (s.core, .ok b) →
    (s.core.snapRuns = true → d.started = false →
      (imageUnits d.pages ≤ (segs.map (·.2)).sum → ∀ a, unitAddr segs 0 = some a → ∃ t crc, exec .snapshotStart s = .next t ∧ crc < 2 ^ 32 ∧ t.core.sd = { d with started := true }
        ∧ t.core.out = .hostWrite a (d.image false crc ++ List.replicate (65536 - (d.image false crc).length) 0) :: s.core.out ∧ t.core.mem = s.core.mem ∧ t.core.ep = s.core.ep)
      ∧ ((segs.map (·.2)).sum < imageUnits d.pages → ∃ t, exec .snapshotStart s = .next t ∧ t.core.sd = { d with active := false, aborted := true } ∧ t.core.ep.snapActive = false
        ∧ (∀ p ∈ t.core.ep.pages, p.2.s = .none) ∧ (∀ a, s.core.OutsidePool s.core.ep.pages a → t.byte a = s.byte a) ∧ s.raised t pgSnap Ev.snapHostError d.step 1 d.drained.length 0))
    ∧ (∀ j pg a, s.core.snapRuns = true → d.started = true → s.core.nextDrain = some j → nthProt s.core.ranges j = some pg → unitAddr segs (1 + j) = some a →
        let p := s.core.pageSt pg
        let src := match p.s with
          | .shadowed x => s.core.slotAddr x
          | _ => pg * 65536
        s.core.badGranules src = [] → ∃ t, exec .snapshotPageDrain s = .next t ∧ t.core.out = .hostWrite a (s.core.bytesAt src 65536) :: s.core.out
          ∧ t.core.sd = { d with drained := d.drained ++ [j], crcs := spWrite 0 d.crcs j (crc32c (s.core.bytesAt src 65536)) } ∧ t.core.pageSt pg = { p with s := .none }
          ∧ (∀ q, q ≠ pg → t.core.pageSt q = s.core.pageSt q) ∧ ∀ a, s.core.OutsidePool [(pg, p)] a → t.byte a = s.byte a)
    ∧ (∀ a, s.core.snapRuns = true → d.started = true → s.core.nextDrain = none → unitAddr segs 0 = some a → ∃ t, exec .snapshotComplete s = .next t
        ∧ t.core.sd = { d with active := false, done := true } ∧ t.core.ep = { s.core.ep with snapActive := false, pages := s.core.ep.pages.filter (fun p => p.2.eslot.isSome) }
        ∧ (let image := d.image true (crc32c d.table)
          Out.hostWrite a (image ++ List.replicate (65536 - image.length) 0) ∈ t.core.out) ∧ t.core.mem = s.core.mem
        ∧ s.raised t pgSnap Ev.snapDone d.step d.pages ((s.core.time - d.sealTime) / 1000000) 0)
    ∧ (s.core.snapRuns = false → exec .snapshotStart s = .next s ∧ exec .snapshotPageDrain s = .next s ∧ exec .snapshotComplete s = .next s)
    ∧ (d.started = true → exec .snapshotStart s = .next s) ∧ (d.started = false → exec .snapshotPageDrain s = .next s ∧ exec .snapshotComplete s = .next s)

/-! The collective engine -/

/-- R284, R405, R408, R410, R426 to R428, R438: the contexts. ENABLE reads the Context Table entry and its shard map whole and makes the context ACTIVE; DISABLE drains it; RESUME makes a HALTED one ACTIVE; a doorbell
gives TAIL its low 19 bits. An operation whose outputs are written, whose nodes are sent and whose messages are acknowledged completes; one whose completion record is refused, or that runs past OP_LIMIT, ends in error.
It rests on the model's readings of log entries 26, 34 and 85. -/
def Obligations.Contexts : Prop :=
  ∀ (s : State) (c : Nat), s.Wf → c < 256 →
    let x := s.core.ctx c
    let m := { s.core with ce := { s.core.ce with lastCtx := c } }
    let others := fun (t : State) => ∀ d, d ≠ c → t.core.ctx d = s.core.ctx d
    (s.Acts pgColl →
      (∀ b l, x.state = .disabled → m.load .coll (m.ctAddr c) 128 = (m, .ok b) → m.load .coll (field b 32 8) (2 * field b 28 4) = (m, .ok l) →
        let map := (chunksOf 2 l.length l).map ofLe
        m.ctxBad b [] = none → m.ctxBad b map = none → bitAt (field b 20 1) 0 = false →
        ∃ t, exec (.contextEnable c) s = .next t ∧ t.core.ctx c = Context.ofBytes b map s.core.rngSeed ∧ (t.core.ctx c).state = .active ∧ others t)
      ∧ (∀ b byte, x.state = .disabled → m.load .coll (m.ctAddr c) 128 = (m, .ok b) → m.ctxBad b [] = some byte →
          ∃ t, exec (.contextEnable c) s = .next t ∧ s.raised t pgColl Ev.collCtxFault byte 0 0 c ∧ t.core.ctx c = x ∧ others t)
      ∧ (x.state = .active ∨ x.state = .halted → ∃ t, exec (.contextDisable c) s = .next t ∧ others t ∧ t.core.ce.ops = s.core.ce.ops
          ∧ t.core.ctx c = { x with state := if s.core.ce.ops.any (fun o => o.ctx = c) then .draining else .disabled })
      ∧ (x.state = .halted → ∃ t, exec (.contextResume c) s = .next t ∧ t.core.ctx c = { x with state := .active } ∧ others t)
      ∧ (∀ i ∈ [(1, Instr.contextEnable c, [QState.active, .draining, .halted]), (2, .contextDisable c, [.disabled, .draining]), (3, .contextResume c, [.disabled, .active, .draining])],
          x.state ∈ i.2.2 → ∃ t, exec i.2.1 s = .next t ∧ s.raised t pgColl Ev.collCmdBad i.1 x.state.code 0 c ∧ t.core.ctx c = x ∧ others t)
      ∧ (∀ tail,
          let full := (x.head + (tail % 2 ^ 19 + 2 ^ 32 - x.head) % 2 ^ 19) % 2 ^ 32
          (x.state = .active ∨ x.state = .halted → x.tailsrc = false → (full + 2 ^ 32 - x.doneIdx) % 2 ^ 32 ≤ 2 ^ x.rlog →
            exec (.ceDoorbell c tail) s = .next { s with core := s.core.setCtxRaw c { x with tail := full } })
          ∧ (x.state = .active → x.tailsrc = false → 2 ^ x.rlog < (full + 2 ^ 32 - x.doneIdx) % 2 ^ 32 → ∃ t, exec (.ceDoorbell c tail) s = .next t ∧ others t
              ∧ s.raised t pgColl Ev.collOverrun full x.doneIdx (2 ^ x.rlog) c ∧ t.core.ctx c = { x with state := .halted, errCode := Ev.collOverrun, errIdx := x.head })
          ∧ (x.state = .disabled ∨ x.state = .draining → ∃ t, exec (.ceDoorbell c tail) s = .next t ∧ s.raised t pgColl Ev.collCmdBad 4 x.state.code 0 c ∧ t.core.ctx c = x)))
    ∧ (∀ idx op, s.core.op? c idx = some op →
        let ready := op.written = true ∧ op.nodesSent (s.core.coll c op.desc) = true ∧ s.core.opWaits c idx = false
        let record := s.core.store .coll (x.recAt idx) (recordBytes idx false false false false 0 op.start s.core.time 0x1FF (s.core.group x.axes).length) false
        let g := sigOf op.desc.sig
        (ready → op.desc.op ≠ 10 → record.2 = none → s.NoTails → ∃ t, exec (.collOpComplete c idx) s = .next t ∧ t.core.op? c idx = none ∧ (t.core.ctx c).ops = (x.ops + 1) % 2 ^ 32 ∧ others t
          ∧ (x.doneIdx = idx → x.finished = [] → (t.core.ctx c).doneIdx = (idx + 1) % 2 ^ 32) ∧ (x.state = .active → (t.core.ctx c).state = .active)
          ∧ (x.state = .draining → (∀ o ∈ s.core.ce.ops, o.ctx = c → o.idx = idx) → (t.core.ctx c).state = .disabled)
          ∧ (∀ n, t.core.ctr n = if bitAt op.desc.modes 6 ∧ n = g.counter ∧ ¬ (g.remote = true ∧ g.modid ≠ s.core.modid) ∧ g.inc ≠ 0 then min (s.core.ctr n + g.inc) (2 ^ 64 - 1) else s.core.ctr n)
          ∧ (let a := x.recAt idx
            a + 32 ≤ s.core.memTop → s.core.memTop ≤ 0x28000000000 → a % 32 = 0 → s.core.isProt (a / 65536) = false → (∀ y ∈ s.core.stks, y.st ≠ .failed) → bitAt op.desc.modes 6 = false →
            s.core.ctAddr c % 128 = 0 → s.core.isProt (s.core.ctAddr c / 65536) = false → s.core.ctAddr c + 128 ≤ a ∨ a + 32 ≤ s.core.ctAddr c →
            ∀ j b, (recordBytes idx false false false false 0 op.start s.core.time 0x1FF (s.core.group x.axes).length)[j]? = some b → t.byte (a + j) = b % 256))
        ∧ (∀ stop, ready → op.desc.op ≠ 10 → record.2 = some stop → ∃ t, exec (.collOpComplete c idx) s = .next t ∧ t.core.op? c idx = none ∧ others t
            ∧ s.raised t pgColl Ev.collMemError idx (stop % 2 ^ 32) (stop / 2 ^ 32) c ∧ (t.core.ctx c).errCode = Ev.collMemError ∧ (x.state = .active → (t.core.ctx c).state = .halted))
        ∧ (op.written = false ∨ op.nodesSent (s.core.coll c op.desc) = false ∨ s.core.opWaits c idx = true → exec (.collOpComplete c idx) s = .next s)
        ∧ (let limit := s.core.fld pgColl 0x108 0 16
          (limit = 0 → exec (.collTimeout c idx) s = .next s)
          ∧ (limit ≠ 0 → ∃ t, exec (.collTimeout c idx) s = .next t ∧ s.raised t pgColl Ev.collTimeout idx limit op.desc.step c ∧ t.core.op? c idx = none
              ∧ (t.core.ctx c).errCode = Ev.collTimeout ∧ (t.core.ctx c).errIdx = idx ∧ (x.state = .active → (t.core.ctx c).state = .halted) ∧ others t)))
    ∧ (∀ idx, s.core.op? c idx = none → exec (.collOpComplete c idx) s = .next s ∧ exec (.collTimeout c idx) s = .next s)

/-- R44, R411 to R416, R420 to R424, R430, R432: an operation starts when it is at HEAD, its wait holds and its descriptor passes the checks: HEAD rises and the operation enters flight with the input as it stands then. The copying ones
send each block in chunks to the members that have it straight from here, a sum grants scratch for the first node that others form, LSUM_ALL and NORM for the first partial sum of their recursive doubling, RECV sends its ready message with its ordinal, and what is for the module
itself stays in the engine (R44); a SEND waits for that message. A row of another OP, or a wait that does not hold, leaves it; a bad descriptor is reported and halts the context.
It rests on the model's readings of log entries 25, 26, 76 and 93. -/
def Obligations.Operations : Prop :=
  ∀ (s : State) (c : Nat) (b aux : List Nat) (data : List (List Nat)), s.Wf →
    let x := s.core.ctx c
    let idx := x.head
    let d := CollDesc.ofBytes b
    let m := s.core.setCtx c { x with head := (idx + 1) % 2 ^ 32 }
    let k := m.coll c d
    let rows := [Instr.reduceScatter c, .allGather c, .allReduce c, .allToAll c, .broadcast c, .send c, .recv c, .permute c, .lsumAll c, .norm c]
    let atHead := s.core.ceRuns = true ∧ x.state = .active ∧ covered x.head x.tail = true ∧ s.core.opMay c = true ∧ s.core.load .coll (x.ring + 128 * (idx % 2 ^ x.rlog)) 128 = (s.core, .ok b)
      ∧ (∀ h ∈ s.core.ce.held, h.ctx = c → h.idx ≠ idx % 65536) ∧ ∀ o ∈ s.core.ce.ops, ¬ (o.ctx = c ∧ o.idx = idx)
    let waits := d.waitEn = true ∧ s.core.ctr d.waitC < d.waitT
    let newMap := if d.op = 8 then (chunksOf 2 aux.length aux).map ofLe else []
    let good := ¬ waits ∧ collDescBad x.shards k.g.length b = none ∧ m.collNumBad c x.shards d = none ∧ d.ragged = false ∧ m.loadAll [(d.aux, k.auxLen)] = (m, .ok [aux])
      ∧ (∀ r ∈ newMap, r < k.g.length) ∧ overlap d.src (k.spans newMap).1 d.dst (k.spans newMap).2 = false ∧ (d.op = 8 → k.spanBad newMap = none)
      ∧ m.loadAll (if d.exact then (if (k.spans newMap).1 = 0 then [] else [(d.src, (k.spans newMap).1)]) else k.regions (k.inputs [])) = (m, .ok data)
    let sum := (chunksOf 96 d.count (data.headD [])).foldl (fun acc y => acc.combine (LongAcc.ofBytes y)) (if d.tap then m.ce.cla.getD d.cla {} else {})
    let begun := m.ordinal { ctx := c, idx, desc := d, digest := d.digest x.shards, start := s.core.time, newMap, parts := if d.exact then [] else partsOf (k.inputs []) data, sum := if d.exact then sum else {} }
    let op := begun.2
    let flies := { begun.1 with ce := { begun.1.ce with ops := m.ce.ops ++ [op] } }
    let sent := fun (t : State) (rank kind node addr : Nat) (bytes : List Nat) =>
      (k.modOf rank ≠ s.core.modid → ∃ y ∈ t.core.rt.msgs, y.type = 6 ∧ y.dst = k.modOf rank ∧ y.addr = addr % 2 ^ 44 ∧ y.arg / 2 ^ 8 % 256 = kind ∧ y.arg / 2 ^ 48 % 65536 = node ∧ y.data = bytes)
      ∧ (k.modOf rank = s.core.modid → ∃ y ∈ t.core.ce.own, y.2.src = s.core.modid ∧ y.2.addr = addr % 2 ^ 44 ∧ y.2.kind = kind ∧ y.2.node = node ∧ y.2.data = bytes)
    let granted := fun (t : State) => ∀ n rest, k.nodesIn = n :: rest → 0 < m.scratchRoom c → sent t (k.nodeFrom n) 1 n.field x.scr (leBytes 4 n.lvl ++ leBytes 4 n.a ++ leBytes 4 n.j ++ leBytes 4 n.ch)
    (atHead → ∀ n i, rows[n]? = some i → 1 ≤ d.op → d.op ≤ 10 →
      (d.op ≠ n + 1 ∨ waits → exec i s = .next s)
      ∧ (∀ byte, d.op = n + 1 → ¬ waits → collDescBad x.shards k.g.length b = some byte → ∃ t, exec i s = .next t ∧ s.raised t pgColl Ev.collDescBad idx byte d.opid c
          ∧ (t.core.ctx c).state = .halted ∧ (t.core.ctx c).errCode = Ev.collDescBad ∧ (t.core.ctx c).errIdx = idx ∧ (t.core.ctx c).head = (idx + 1) % 2 ^ 32 ∧ t.core.op? c idx = none))
    ∧ (atHead → good →
        (d.op = 6 → (∀ r ∈ m.ce.readies, r.suits op = false) → exec (.send c) s = .next { s with core := flies })
        ∧ (d.op = 7 → ∃ t, exec (.recv c) s = .next t ∧ t.core.op? c idx = some op
            ∧ (t.core.ctx c).recvs = spWrite 0 x.recvs (d.root * 2 ^ 32 + d.tag) (op.ord + 1) ∧ op.ord = spRead 0 x.recvs (d.root * 2 ^ 32 + d.tag)
            ∧ sent t d.root 2 0 0 (leBytes 4 d.tag ++ leBytes 8 d.count ++ leBytes 4 d.tgt ++ leBytes 8 d.dst ++ leBytes 8 d.dstSc ++ leBytes 4 op.ord))
        ∧ (∀ i ∈ [(2, Instr.allGather c), (4, .allToAll c), (5, .broadcast c), (8, .permute c)], d.op = i.1 → ∃ t, exec i.2 s = .next t
            ∧ (∀ p r o ch, (p, r, o) ∈ op.copies k (m.nextRanks k k.me) → r ≠ k.me → ch < k.chunks → sent t r 0 0xFFFF (o + ch * 4096) (p.chunk d.s d.srcMode ch).2.1
                ∧ (d.codesTravel = true → sent t r 0 0xFFFE (o + ch * 4096) (p.chunk d.s d.srcMode ch).2.2))
            ∧ (∀ ws u, (∀ y ∈ op.copies k (m.nextRanks k k.me), y.2.1 = k.me) → op.copyWrites k = some ws → flies.storeAll ws = (u, none) → t = { s with core := u.setOp { op with written := true } }))
        ∧ (∀ i ∈ [(9, Instr.lsumAll c), (10, .norm c)], d.op = i.1 →
            ((dblFrom k.g.length k.me).isSome = true → exec i.2 s = .next { s with core := flies })
            ∧ (k.nodesIn ≠ [] → ∃ t o, exec i.2 s = .next t ∧ t.core.op? c idx = some o ∧ o.sum = sum ∧ o.written = false ∧ granted t)
            ∧ (∀ u, k.others = [] → flies.store .coll d.dst sum.bytes false = (u, none) → ∃ t o, exec i.2 s = .next t ∧ t.core.op? c idx = some o ∧ o.written = true ∧ o.total = some sum ∧ t.core.mem = u.mem))
        ∧ (∀ i ∈ [(1, Instr.reduceScatter c), (3, .allReduce c)], d.op = i.1 →
            ((∃ j ∈ k.hosted x.smap, op.roots k j = none) → ∃ t o, exec i.2 s = .next t ∧ t.core.op? c idx = some o ∧ o.desc = d ∧ o.parts = op.parts ∧ o.formed = false ∧ o.written = false ∧ granted t)
            ∧ (∀ v, k.nodesIn = [] → (∀ j ∈ k.hosted x.smap, (op.roots k j).isSome = true) → flies.formAll op k = (v, none) →
                k.others = [] → (∀ j, j < x.shards → k.hostOf j = k.me) → ∃ t w, exec i.2 s = .next t ∧ t.core.op? c idx = some w ∧ w.written = true ∧ w.formed = true ∧ t.core.mem = v.mem)))

/-- R44, R340, R341, R343, R389, R390, R399, R412, R420, R422, R424, R425, R427, R430, R432: the COLL messages that have come whole. Each is taken and answered once; one that was refused, or that has been applied before, changes nothing else. Data enters its operation, its
packets written where they have not been as they came, or is held for one not yet read; final data is passed on by the schedule; a grant lets its node go; a ready message meets its SEND or waits; an abort ends the operation; messages of the vote are combined and go on; a veto is sent
onward and decides ROLLBACK in an open step. A message of the module to itself comes first, and a reset of the engine or the module refuses every other one (R44, R399).
It rests on the model's readings of log entries 14, 25, 26, 65 and 93. -/
def Obligations.CollectiveMessages : Prop :=
  ∀ (s : State) (n : Nat) (i : Instr), s.Wf → [Instr.collData, .collGrant, .collReady, .collAbort, .collVote, .collVeto][n]? = some i →
    let mine := s.core.ce.own.find? (fun e => e.2.kind = n)
    let found := s.core.rt.whole.find? (fun y => y.type = 6 && y.kind = n)
    (mine = none → found = none → exec i s = .next s)
    ∧ (∀ y op m, n = 0 → mine = some y → y.2.src = s.core.modid → s.core.ce.ops.find? (fun o => o.ctx = y.2.ctx && o.idx % 65536 = y.2.idx) = some op → y.2.digest = op.digest → op.desc.op = 7 → y.2.got = [(0, y.2.data)] → y.2.put = [] →
        let took := { s.core with ce := { s.core.ce with own := s.core.ce.own.erase y } }
        took.store .coll y.2.addr y.2.data false = (m, none) → ∃ t o, exec i s = .next t ∧ t.core.ce.own = s.core.ce.own.erase y ∧ t.core.rt = m.rt ∧ t.core.mem = m.mem
          ∧ t.core.op? op.ctx op.idx = some o ∧ o.got.1 + o.got.2 = op.got.1 + op.got.2 + y.2.data.length ∧ o.desc = op.desc)
    ∧ (∀ y, mine = none → found = some y →
        let old := if y.dup then s.core.oldStatus y else y.status
        let c := y.ctx
        let e := s.core.ep
        let took := { s.core with rt := { s.core.rt with whole := s.core.rt.whole.erase y } }
        (y.dup = true ∨ y.status ≠ 0 → ∃ t, exec i s = .next t ∧ s.Answered t y old ∧ t.core.ce = s.core.ce ∧ t.core.ep = e ∧ t.core.mem = s.core.mem)
        ∧ (y.dup = false → y.status = 0 → s.core.crst = true ∨ s.core.shut = true → ∃ t, exec i s = .next t ∧ s.Answered t y 4 ∧ t.core.ce = s.core.ce ∧ t.core.ep = e ∧ t.core.mem = s.core.mem)
        ∧ (y.dup = false → y.status = 0 → s.core.crst = false → s.core.shut = false →
          (∀ op, n < 4 → n ≠ 2 → s.core.ce.ops.find? (fun o => o.ctx = c && o.idx % 65536 = y.idx) = some op →
            let k := s.core.coll op.ctx op.desc
            (n < 2 → y.digest ≠ op.digest → ∃ t, exec i s = .next t ∧ s.Answered t y 0 ∧ s.raised t pgColl Ev.collMismatch op.idx op.digest y.digest c ∧ (t.core.ctx c).errCode = Ev.collMismatch)
            ∧ (n = 0 → y.digest = op.digest → op.desc.op = 7 →
              let received := fun (t : State) (o : CollOp) => t.core.op? op.ctx op.idx = some o ∧ o.got.1 + o.got.2 = op.got.1 + op.got.2 + y.data.length ∧ o.desc = op.desc
              ((∀ g ∈ y.got, g.1 ∈ y.put) → ∃ t o, exec i s = .next t ∧ s.Answered t y 0 ∧ t.core.mem = s.core.mem ∧ received t o)
              ∧ (y.got = [(0, y.data)] → y.put = [] → (∀ m, took.store (took.writer y) y.addr y.data false = (m, none) → ∃ t o, exec i s = .next t ∧ s.Answered t y 0 ∧ t.core.mem = m.mem ∧ received t o)
                ∧ ∀ m stop, took.store (took.writer y) y.addr y.data false = (m, some stop) → ∃ t, exec i s = .next t ∧ s.Answered t y 2
                  ∧ s.raised t pgColl Ev.collMemError op.idx (stop % 2 ^ 32) (stop / 2 ^ 32) c ∧ t.core.op? op.ctx op.idx = none))
            ∧ (n = 0 → y.digest = op.digest → y.node = 0xFFFF ∨ y.node = 0xFFFE → op.desc.copying = true → op.written = false → (∀ g ∈ y.got, g.1 ∈ y.put) →
                let f : Final := { origin := k.originOf y, node := y.node, addr := y.addr, data := y.data }
                let op' := { op with finals := op.finals ++ [f] }
                (∀ g ∈ op.finals, ¬ (g.origin = f.origin ∧ g.node = f.node ∧ g.addr = f.addr)) → op'.copyWrites k = none → op.grants = [] → ∃ t, exec i s = .next t ∧ s.Answered t y 0 ∧ t.core.op? op.ctx op.idx = some op'
                  ∧ t.core.mem = s.core.mem ∧ (op.desc.op = 2 ∨ op.desc.op = 5 → ∀ r ∈ s.core.nextRanks k f.origin, k.modOf r ≠ s.core.modid → ∃ z ∈ t.core.rt.msgs, z.type = 6 ∧ z.dst = k.modOf r
                    ∧ z.addr = y.addr % 2 ^ 44 ∧ z.arg / 2 ^ 48 % 65536 = y.node ∧ z.data = y.data))
            ∧ (n = 0 → y.digest = op.digest → y.node ≠ 0xFFFF → y.node ≠ 0xFFFE → op.desc.exact = true → op.written = false → (∀ g ∈ y.got, g.1 ∈ y.put) →
                ∀ g, op.granted.find? (fun g => (op.places k).contains g.2 && g.2 = y.addr && !op.nodes.any (fun n => n.1 = g.1)) = some g →
                let op' := { op with nodes := op.nodes ++ [(g.1, y.data)] }
                (op'.groupSum k = none → ∃ t o, exec i s = .next t ∧ s.Answered t y 0 ∧ t.core.op? op.ctx op.idx = some o ∧ o.nodes = op'.nodes ∧ o.written = false
                  ∧ ∀ key a bs, (op.grants.map (·.1)).Nodup → (key, a) ∈ op.grants → op.sent.contains key = false → op'.outBytes k key = some bs → k.modOf (k.nodeTo key) ≠ s.core.modid →
                      ∃ z ∈ t.core.rt.msgs, z.type = 6 ∧ z.dst = k.modOf (k.nodeTo key) ∧ z.addr = a % 2 ^ 44 ∧ z.data = bs)
                ∧ (k.g.length = 2 → k.me < 2 → g.1 = ⟨1, 1 - k.me, 0, 0⟩ → op.nodes = [] → (∀ x ∈ op.grants, op.sent.contains x.1 = true) →
                    let sum := op.sum.combine (LongAcc.ofBytes y.data)
                    ∀ u, took.store .coll op.desc.dst sum.bytes false = (u, none) → ∃ t o, exec i s = .next t ∧ s.Answered t y 0 ∧ t.core.op? op.ctx op.idx = some o ∧ o.total = some sum ∧ o.written = true
                      ∧ t.core.mem = u.mem))
            ∧ (n = 1 → y.digest = op.digest → op.desc.op = 1 → op.formed = true → op.written = true → op.grants = [] →
                let key : NodeKey := ⟨field y.data 0 4, field y.data 4 4, field y.data 8 4, field y.data 12 4⟩
                op.sent.contains key = false → k.modOf (k.parentHost key) ≠ s.core.modid → ∀ bs, op.nodeBytes k key = some bs → ∃ t o, exec i s = .next t ∧ s.Answered t y 0 ∧ t.core.op? op.ctx op.idx = some o ∧ o.grants = [(key, y.addr)]
                  ∧ ∃ z ∈ t.core.rt.msgs, z.type = 6 ∧ z.dst = k.modOf (k.parentHost key) ∧ z.addr = y.addr % 2 ^ 44 ∧ z.data = bs)
            ∧ (n = 3 → op.desc.op ≠ 7 → ∃ t, exec i s = .next t ∧ s.Answered t y 0 ∧ s.raised t pgColl Ev.collPeerAbort op.idx y.src (ofLe (y.data.take 2)) c ∧ t.core.op? op.ctx op.idx = none
                ∧ (t.core.ctx c).errCode = Ev.collPeerAbort ∧ ((s.core.ctx c).state = .active → (t.core.ctx c).state = .halted)))
          ∧ (n ∈ [0, 1, 3] → s.core.ce.ops.find? (fun o => o.ctx = c && o.idx % 65536 = y.idx) = none → ∃ t, exec i s = .next t ∧ s.Answered t y 0 ∧ t.core.mem = s.core.mem
              ∧ t.core.ce = (if (y.idx + 65536 - (s.core.ctx c).head % 65536) % 65536 < 32768 then { s.core.ce with held := s.core.ce.held ++ [y] } else s.core.ce))
          ∧ (n = 2 →
              let r : Ready := { ctx := c, rank := rankOf (s.core.coll c {}).g y.src, idx := y.idx, ord := field y.data 32 4, digest := y.digest, tag := field y.data 0 4, count := field y.data 4 8, tgt := field y.data 12 1,
                                 dst := field y.data 16 8, dstSc := field y.data 24 8 }
              let meets := s.core.ce.ops.find? (fun o => r.suits o && o.ready.isNone)
              (meets = none → ∃ t, exec i s = .next t ∧ s.Answered t y 0 ∧ t.core.ce = { s.core.ce with readies := s.core.ce.readies ++ [r] })
              ∧ (∀ op, meets = some op → r.count ≠ op.desc.count ∨ r.tgt ≠ op.desc.tgt → ∃ t, exec i s = .next t ∧ s.raised t pgColl Ev.collMismatch op.idx op.digest r.digest c ∧ t.core.op? op.ctx op.idx = none)
              ∧ (∀ op, meets = some op → r.count = op.desc.count → r.tgt = op.desc.tgt → op.desc.converts = false → (s.core.coll c {}).modOf r.rank ≠ s.core.modid → ∃ t o, exec i s = .next t ∧ s.Answered t y 0 ∧ t.core.op? op.ctx op.idx = some o
                  ∧ o.written = true ∧ o.ready = some r
                  ∧ ∀ bs, (chunksOf 65536 (op.parts.headD default).bytes.length (op.parts.headD default).bytes).head? = some bs →
                      ∃ z ∈ t.core.rt.msgs, z.type = 6 ∧ z.dst = (s.core.coll c {}).modOf r.rank ∧ z.addr = r.dst % 2 ^ 44 ∧ z.data = bs))
          ∧ (n = 4 ∨ n = 5 →
              let v := y.vote
              let kept := if (v.ord + 65536 - e.ord) % 65536 < 32768 then e.votes ++ [v] else e.votes
              let u := { s.core with ep := { e with votes := kept } }
              let onward := fun (t : State) => ∀ p ∈ s.core.nexts s.core.voters v.src, ∃ z ∈ t.core.rt.msgs, z.type = 6 ∧ z.dst = p ∧ z.arg / 2 ^ 8 % 256 = 5 ∧ z.data = v.bytes
              (n = 4 → ∃ t, exec i s = .next t ∧ s.Answered t y 0 ∧ t.core.ep = { e with votes := kept, given := t.core.ep.given } ∧ (u.votes v.kind = false → t.core.ep.given = e.given)
                  ∧ (u.votes v.kind = true → ∀ p ∈ u.voteOuts, ∀ w, u.voteAt v.kind p.1 = some w → (v.kind, p.1) ∉ e.given → ∃ z ∈ t.core.rt.msgs, z.type = 6 ∧ z.dst = u.voters.getD p.2 0
                      ∧ z.arg / 2 ^ 8 % 256 = 4 ∧ z.arg / 2 ^ 48 % 65536 = p.1 ∧ z.data = w.bytes))
              ∧ (n = 5 → e.st ≠ .opened ∨ v.ord ≠ e.ord → ∃ t, exec i s = .next t ∧ s.Answered t y 0 ∧ t.core.ep = { e with votes := kept } ∧ onward t)
              ∧ (n = 5 → e.st = .opened → v.ord = e.ord → ∃ t, exec i s = .next t ∧ s.Answered t y 0 ∧ t.core.ep.st = .rollingBack ∧ t.core.ep.decision = .rollback
                  ∧ t.core.ep.published = true ∧ t.core.ep.shSlice = (s.core.joinedWord ||| v.word) ∧ onward t))))

/-! The router -/

/-- R312, R313, R367, R368, R373, R388 to R392, R395, R399: messages at their destination and at their source. A WRITE and an EV_INC are answered once, a READ_REQ is served with the data or with the status of its failure, READ_DATA is written at its
return address, an ACK ends its message for whoever waits for it, a MGMT message enters the Felt queue; the timer resends a message whole, or ends it.
It rests on the model's readings of log entries 82 and 84. -/
def Obligations.Messages : Prop :=
  ∀ (s : State), s.Wf → s.NoTails →
    let first := fun ty => s.core.rt.whole.find? (fun y => y.type = ty)
    let took := fun y => { s.core with rt := { s.core.rt with whole := s.core.rt.whole.erase y } }
    let gone := fun (t : State) (x : Msg) => ∀ z ∈ t.core.rt.msgs, ¬ (z.dst = x.dst ∧ z.seq = x.seq)
    let xferOf := fun (u : State) k tag => ((u.eng k).getTag tag).xfer
    let off := s.core.shut = true
    (∀ i ∈ [(1, Instr.write), (2, .readReq), (3, .readData), (4, .evInc), (5, .ack), (7, .mgmt)], first i.1 = none → exec i.2 s = .next s)
    ∧ (∀ y, first 1 = some y → ∃ t, exec .write s = .next t ∧ s.Answered t y (if y.dup then s.core.oldStatus y else if y.status ≠ 0 then y.status else if s.core.shut then 4 else 0) ∧ t.core.mem = s.core.mem ∧ t.core.engs = s.core.engs)
    ∧ (∀ y, first 2 = some y →
        let n := y.arg / 2 ^ 44
        (y.status ≠ 0 → ∃ t, exec .readReq s = .next t ∧ s.Answered t y y.status) ∧ (y.status = 0 → off → ∃ t, exec .readReq s = .next t ∧ s.Answered t y 4)
        ∧ (y.status = 0 → ¬ off → n = 0 ∨ 65536 < n → ∃ t, exec .readReq s = .next t ∧ s.Answered t y 2)
        ∧ (y.status = 0 → ¬ off → 0 < n → n ≤ 65536 →
            (∀ m a code, (took y).load (.remote y.src) y.addr (64 * n) = (m, .refused a code) → ∃ t, exec .readReq s = .next t ∧ s.Answered t y 2)
            ∧ (∀ m a, (took y).load (.remote y.src) y.addr (64 * n) = (m, .poisoned a) → ∃ t, exec .readReq s = .next t ∧ s.Answered t y 3)
            ∧ (∀ bs, (took y).load (.remote y.src) y.addr (64 * n) = (took y, .ok bs) → ∃ t z, exec .readReq s = .next t ∧ t.core.rt.whole = s.core.rt.whole.erase y
                ∧ t.core.rt.msgs = s.core.rt.msgs ++ [z] ∧ z.type = 3 ∧ z.dst = y.src ∧ z.addr = y.arg % 2 ^ 44 ∧ z.arg = y.seq ∧ z.data = bs ∧ t.core.mem = s.core.mem)))
    ∧ (∀ y, first 3 = some y →
        let asked := s.core.rt.msgs.find? (fun x => x.dst = y.src && x.seq = bitsOf y.arg 0 32 && x.type = 2)
        (asked = none ∨ off → exec .readData s = .next { s with core := took y })
        ∧ (∀ x, asked = some x → ¬ off → ∃ t, exec .readData s = .next t ∧ t.core.mem = (s.core.wr y.addr y.data).mem ∧ gone t x
            ∧ ∀ k tag f, x.owner = .dma k tag → k < s.core.engs.length → (s.eng k).tags.length = 16 → tag < 16 → xferOf s k tag = some f → xferOf t k tag = some { f with answered := true, status := 0 }))
    ∧ (∀ y, first 4 = some y →
        let c := bitsOf y.arg 0 16
        let n := bitsOf y.arg 16 24
        (y.dup = true ∨ y.status ≠ 0 → ∃ t, exec .evInc s = .next t ∧ s.Answered t y (if y.dup then s.core.oldStatus y else y.status) ∧ ∀ d, t.core.ctr d = s.core.ctr d)
        ∧ (y.dup = false → y.status = 0 → s.core.crst = true ∨ off → ∃ t, exec .evInc s = .next t ∧ s.Answered t y 4 ∧ ∀ d, t.core.ctr d = s.core.ctr d)
        ∧ (y.dup = false → y.status = 0 → s.core.crst = false → ¬ off →
            (s.core.fld pgDsp 0x108 0 16 ≤ c → c ≤ s.core.fld pgDsp 0x108 16 16 → ∃ t, exec .evInc s = .next t ∧ s.Answered t y 0
              ∧ (∀ d, t.core.ctr d = if d = c then min (s.core.ctr c + n) (2 ^ 64 - 1) else s.core.ctr d) ∧ t.core.reg pgDsp 0x18C = cap32 (s.core.reg pgDsp 0x18C + 1))
            ∧ (c < s.core.fld pgDsp 0x108 0 16 ∨ s.core.fld pgDsp 0x108 16 16 < c → ∃ t, exec .evInc s = .next t ∧ s.Answered t y 6 ∧ ∀ d, t.core.ctr d = s.core.ctr d)))
    ∧ (∀ y, first 5 = some y →
        let status := bitsOf y.arg 32 8
        let asked := s.core.rt.msgs.find? (fun x => x.dst = y.src && x.seq = bitsOf y.arg 0 32 && x.started && needsAck x.type)
        (asked = none → exec .ack s = .next { s with core := took y })
        ∧ (∀ x, asked = some x → ∃ t, exec .ack s = .next t ∧ (x.owner.isPlain = true → gone t x ∧ t.core.mem = s.core.mem)
            ∧ (status = 5 ∨ status = 7 → s.raised t pgRouter Ev.fabPeerReset x.dst x.seq status 0xFF)
            ∧ (∀ k tag f, x.owner = .dma k tag → k < s.core.engs.length → (s.eng k).tags.length = 16 → tag < 16 → xferOf s k tag = some f → xferOf t k tag = some { f with answered := true, status })
            ∧ (∀ k, x.owner = .evsig k → k < s.core.engs.length → (t.eng k).remotes = (s.eng k).remotes - 1
                ∧ (status ≠ 0 → (s.eng k).remoteRefused = none → (t.eng k).remoteRefused = some (x.arg % 2 ^ 16, x.dst)))
            ∧ (∀ q idx, x.owner = .task q idx → status ≠ 0 → s.raised t pgDsp Ev.evRemoteRefused (x.arg % 2 ^ 16) x.dst idx q
                ∧ ((s.core.queue q).state = .active → (t.core.queue q).state = .halted) ∧ (t.core.queue q).errCode = Ev.evRemoteRefused)
            ∧ (∀ c idx op, x.owner = .coll c idx → s.core.op? c idx = some op → (status = 0 → t.core.ce = s.core.ce)
                ∧ (status ≠ 0 → s.raised t pgColl Ev.collMsgError idx status x.dst c ∧ t.core.op? c idx = none))))
    ∧ (∀ y, first 7 = some y → exec .mgmt s =
        .next { s with core := if s.core.felt.requests.length < 256 then { took y with felt := { s.core.felt with requests := s.core.felt.requests ++ [.mgmt y.src y.data] } } else took y })
    ∧ (∀ dst seq x, s.core.rt.msgs.find? (fun x => x.dst = dst && x.seq = seq) = some x →
        let runs := x.started = true ∧ needsAck x.type = true ∧ x.left = [] ∧ s.core.rtOn = true
        (¬ runs → exec (.retransmissionTimer dst seq) s = .next s)
        ∧ (runs → x.attempt < s.core.fld pgRouter 0x158 16 4 → ∃ t, exec (.retransmissionTimer dst seq) s = .next t ∧ t.core.reg pgRouter 0x19C = cap32 (s.core.reg pgRouter 0x19C + 1)
            ∧ ({ x with attempt := x.attempt + 1, left := List.range (pktCount x.data.length) } : Msg) ∈ t.core.rt.msgs ∧ t.core.rt.msgs.length = s.core.rt.msgs.length)
        ∧ (runs → s.core.fld pgRouter 0x158 16 4 ≤ x.attempt → x.owner.isPlain = true → ∃ t, exec (.retransmissionTimer dst seq) s = .next t
            ∧ s.raised t pgRouter Ev.fabRtxExhausted dst seq x.type 0xFF ∧ gone t x)
        ∧ (x.left ≠ [] → ∃ t, exec (.injectionWaitExpiry dst seq) s = .next t ∧ ({ x with hurried := true } : Msg) ∈ t.core.rt.msgs
            ∧ ∀ z ∈ s.core.rt.msgs, ¬ (z.dst = dst ∧ z.seq = seq) → z ∈ t.core.rt.msgs)
        ∧ (x.left = [] → exec (.injectionWaitExpiry dst seq) s = .next s))
    ∧ (∀ src seq,
        let whole := s.core.rt.reasm.find? (fun x => x.src = src && x.seq = seq && x.got.length = x.cnt)
        (whole = none → exec (.messageComplete src seq) s = .next s)
        ∧ (∀ x, whole = some x → exec (.messageComplete src seq) s = .next { s with core :=
            ({ s.core with rt := { s.core.rt with reasm := s.core.rt.reasm.filter (· ≠ x), whole := s.core.rt.whole ++ [x] } } : Mod).setDup ((s.core.dupOf src x.inc).add seq x.status) }))

/-- R359 to R363, R371, R385, R394, R398, R404: the ports train, exchange identity frames and come up, or are MISPLACED, or go down; the peer's mask and its transit-hold are taken in; quarantine ends; RT_INJECT takes its bit.
It rests on the model's readings of log entry 66. -/
def Obligations.Links : Prop :=
  ∀ (s : State) (i : Nat), s.Wf → i < 19 → s.core.ports.length = 19 →
    let p := s.core.port i
    let becomes := fun (c : Instr) (q : Port) => exec c s = .next { s with core := s.core.setPort i q }
    let down : Port := { p with st := .down, swapped := false, ver := 0, holdIn := false, peerMask := none }
    let falls := fun (t : State) (cause : Nat) (q : Port) => t.core.port i = q ∧ (∀ j, j ≠ i → t.core.port j = s.core.port j) ∧
      let n := if p.st = .up then cap32 (s.core.reg (pgPort i) 0x198 + 1) else s.core.reg (pgPort i) 0x198
      t.core.reg (pgPort i) 0x198 = n ∧ s.raised t (pgPort i) Ev.fabPortDown cause n p.peerMod i
    (p.st = .down → s.core.rt.inReset = false → becomes (.portTrainingStart i) { p with st := .train, lanes := 0 }) ∧ (p.st ≠ .down → exec (.portTrainingStart i) s = .next s)
    ∧ (p.st = .train → becomes (.trainingFailure i) { p with st := .down } ∧ ∃ t, exec (.lanesLocked i) s = .next t ∧ t.core.port i = { p with st := .ident, lanes := 15, frame := none }
        ∧ t.core.out = .ident i (identBytes (s.core.ident i)) :: s.core.out)
    ∧ (p.st ≠ .train → exec (.trainingFailure i) s = .next s ∧ exec (.lanesLocked i) s = .next s)
    ∧ (∀ f : IdFrame,
        let heard := p.hear f
        let known := f.machine = s.core.reg pgRouter 0x108 ∧ f.modid = s.core.expected i
        let said := p.st = .ident ∨ (p.st = .misplaced ∧ p.frame ≠ some f)
        (said → max f.verMin 1 ≤ min f.verMax 1 → known → f.port = expectedPort i ∨ bundlePartner (expectedPort i) = some f.port → ∃ t, exec (.identityFrame i f) s = .next t
          ∧ t.core.port i = { heard with st := .up, swapped := decide (f.port ≠ expectedPort i), ver := 1, verNone := false } ∧ .mask i (s.core.ownMask i) ∈ t.core.out
          ∧ (p.st = .misplaced → .ident i (identBytes (s.core.ident i)) ∈ t.core.out)
          ∧ s.raised t (pgPort i) (if f.port = expectedPort i then Ev.fabPortUp else Ev.fabPortSwapped) f.modid f.port (if f.port = expectedPort i then 1 else 0) i
          ∧ (s.core.rt.quarWait = true → t.core.rt.quar = true ∧ s.raised t pgRouter Ev.fabQuarantine s.core.rt.inc (s.core.reg pgRouter 0x160) 0 0xFF))
        ∧ (said → max f.verMin 1 ≤ min f.verMax 1 → ¬ known ∨ (f.port ≠ expectedPort i ∧ bundlePartner (expectedPort i) ≠ some f.port) → ∃ t, exec (.identityFrame i f) s = .next t
            ∧ t.core.port i = { heard with st := .misplaced } ∧ s.raised t (pgPort i) Ev.misplaced f.modid f.port (s.core.expected i) i)
        ∧ (said → min f.verMax 1 < max f.verMin 1 → ∃ t, exec (.identityFrame i f) s = .next t ∧ (t.core.port i).st = .down
            ∧ (p.verNone = false → s.raised t (pgPort i) Ev.fabVerNone 0x0101 (f.verMin + 256 * f.verMax) f.modid i))
        ∧ (p.st = .up → becomes (.identityFrame i f) heard) ∧ (p.st ∈ [.down, .train, .disabled] ∨ (p.st = .misplaced ∧ p.frame = some f) → exec (.identityFrame i f) s = .next s))
    ∧ exec (.heartbeatFrame i) s = .next s
    ∧ (p.st ∈ [.ident, .up, .misplaced] → exec (.heartbeatSend i) s = .next { s with core := s.core.send (.heartbeat i) }
        ∧ (∃ t, exec (.heartbeatLoss i) s = .next t ∧ falls t 1 down ∧ t.core.reg (pgPort i) 0x190 = cap32 (s.core.reg (pgPort i) 0x190 + 4))
        ∧ ∀ lane, lane < 4 → ∃ t, exec (.laneLockLoss i lane) s = .next t ∧ falls t 2 { down with lanes := setBits p.lanes lane 1 0 })
    ∧ (p.st ∉ [.ident, .up, .misplaced] → exec (.heartbeatSend i) s = .next s ∧ exec (.heartbeatLoss i) s = .next s)
    ∧ (∀ lane, lane < 4 → p.st = .train → becomes (.laneLockLoss i lane) { p with lanes := setBits p.lanes lane 1 0 })
    ∧ (∀ mask : BitVec 256, p.st = .up ∨ p.st = .ident → ∃ t, exec (.maskFrame i mask) s = .next t ∧ t.core.port i = { p with peerMask := some mask.toNat }
        ∧ ∀ d, (List.range 256).find? (fun b => bitAt (s.core.ownMask i) b ≠ bitAt mask.toNat b) = some d → s.raised t (pgPort i) Ev.fabMaskSkew d (b2n (bitAt (s.core.ownMask i) d)) p.peerMod i)
    ∧ (∀ on, p.st = .up → becomes (.transitHold i on) { p with holdIn := on })
    ∧ (s.core.rt.quar = true → ∃ t, exec .quarantineEnd s = .next t ∧ t.core.rt = { s.core.rt with quar := false } ∧ (p.st ∈ [.ident, .up, .misplaced] → .ident i (identBytes { s.core.ident i with quar := false }) ∈ t.core.out))
    ∧ (s.core.rt.quar = false → exec .quarantineEnd s = .next s)
    ∧ (∀ v, s.Open pgRouter → exec (.rtInjectWrite v) s = .next { s with core := s.core.setReg pgRouter 0x170 (v % 2) })

/-- R366, R372, R373, R377 to R382, R384, R387 to R389, R396: an UP port buffers a packet that passes its checks; a round hands a packet for the module to reassembly and sends another one out by a productive port, the axis with the
largest distance first, with HOPS counted; the payload of a COLL data packet whose operation has been read is written as it arrives; a packet past RT_LIFE and Gauze that has waited too long are discarded and reported.
It rests on the model's readings of log entries 25, 82 and 84. -/
def Obligations.Packets : Prop :=
  ∀ (s : State) (i : Nat), s.Wf → i < 19 → s.core.ports.length = 19 →
    let p := s.core.port i
    let rest := fun (t : State) => ∀ j, j ≠ i → t.core.port j = s.core.port j
    (∀ hdr payload : List Byte, p.st = .up →
      let h := hdr.map (·.toNat)
      let d := payload.map (·.toNat)
      let q := Packet.ofBytes h d
      let bad := h.getD 60 0 ≠ hparOf h ∨ headerBad h d = true
      ∃ t, exec (.packetArrival i hdr payload) s = .next t ∧ rest t ∧ t.core.mem = s.core.mem
        ∧ (s.core.rtOn = false → t.core.port i = p ∧ (s.core.rt.dropSaid = false → s.raised t pgRouter Ev.fabDropDisabled (cap32 (s.core.reg pgRouter 0x1B0 + 1)) 0 0 i))
        ∧ (s.core.rtOn = true → bad → t.core.port i = p ∧ s.raised t pgRouter Ev.fabHdrParity (h.getD 60 0) (hparOf h) 0 i)
        ∧ (s.core.rtOn = true → ¬ bad → s.core.maskBit i q.slice = false → t.core.port i = p ∧ s.raised t pgRouter Ev.fabSliceRefused q.slice q.src q.dst i)
        ∧ (s.core.rtOn = true → ¬ bad → s.core.maskBit i q.slice = true → t.core.port i = if p.full then p else { p with buf := p.buf ++ [{ pkt := q, since := s.core.time }] }))
    ∧ (∀ b : Buffered, s.core.rtOn = true → s.core.rt.msgs = [] → p.buf = [b] → p.transit = none → p.full = false → (∀ j, j ≠ i → (s.core.port j).buf = [] ∧ (s.core.port j).transit = none) →
        (∀ j, (s.core.port j).holdOut = false) → s.core.native b.pkt = true → b.pkt.urgent = false →
        let q := s.core.rephase b.pkt
        let ways := (s.core.ways q).filter (fun w => s.core.allows q w.1)
        (b.pkt.dst ≠ s.core.modid → ∀ o, bestWay ways = some o → ∃ t, exec .routerRound s = .next t ∧ t.core.out = .packet o { q with hops := min 255 (q.hops + 1) } :: s.core.out
          ∧ (t.core.port i).buf = [] ∧ t.core.mem = s.core.mem)
        ∧ (b.pkt.dst ≠ s.core.modid → ways = [] → s.core.time < b.since + 11 → ∃ t, exec .routerRound s = .next t ∧ t.core.out = s.core.out ∧ (t.core.port i).buf = [{ b with pkt := q }])
        ∧ (b.pkt.dst = s.core.modid → q.crcOk = false → ∃ t, exec .routerRound s = .next t ∧ (∀ e x, .packet e x ∈ t.core.out → .packet e x ∈ s.core.out)
            ∧ (t.core.port i).buf = [] ∧ s.raised t pgRouter Ev.fabCrcError q.src q.seq q.idx i ∧ t.core.rt.reasm = s.core.rt.reasm)
        ∧ (b.pkt.dst = s.core.modid → q.crcOk = true → s.core.refuses q = 0 → q.type ≠ 1 → q.idx < q.cnt → q.cnt = 1 → (∀ e ∈ s.core.rt.reasm, ¬ (e.src = q.src ∧ e.seq = q.seq ∧ e.inc = q.inc)) →
            (s.core.rt.reasm.filter (fun e => e.got.length < e.cnt)).length < 1024 →
            let x : InMsg := { src := q.src, seq := q.seq, inc := q.inc, type := q.type, addr := q.addr, arg := q.arg, cnt := 1, slice := q.slice, dup := (s.core.dupOf q.src q.inc).has q.seq, got := [(0, q.payload)] }
            let op := s.core.ce.ops.find? (fun o => o.ctx = x.ctx && o.idx % 65536 = x.idx)
            (q.type ≠ 6 ∨ x.dup = true ∨ op.bind (·.putAt x) = none → ∃ t, exec .routerRound s = .next t ∧ (t.core.port i).buf = [] ∧ t.core.mem = s.core.mem ∧ x ∈ t.core.rt.reasm)
            ∧ (∀ a, q.type = 6 → x.dup = false → op.bind (·.putAt x) = some a → q.payload ≠ [] → a + q.payload.length ≤ s.core.memTop → s.core.memTop ≤ 0x28000000000 → a % 65536 + q.payload.length ≤ 65536 →
                s.core.isProt (a / 65536) = false → (∀ k ∈ s.core.stks, k.st ≠ .failed) → ∃ t, exec .routerRound s = .next t ∧ (t.core.port i).buf = [] ∧ { x with put := [0] } ∈ t.core.rt.reasm
                  ∧ (∀ j v, q.payload[j]? = some v → t.byte (a + j) = v % 256) ∧ ∀ y, y < a ∨ a + q.payload.length ≤ y → t.byte y = s.byte y)))
    ∧ (s.core.rtOn = false → exec .routerRound s = .next s)
    ∧ (∀ n c, (s.core.waiting i)[n]? = some c →
        let q := c.b.pkt
        let old := q.age + s.core.fld pgRouter 0x15C 0 16 * 1000 < s.core.time
        (s.core.rtOn = true → old → ∃ t, exec (.fabLifeDrop i n) s = .next t ∧ rest t ∧ t.core.port i = (if c.transit then { p with transit := none } else { p with buf := p.buf.erase c.b })
          ∧ t.core.reg pgRouter 0x194 = cap32 (s.core.reg pgRouter 0x194 + 1) ∧ s.raised t pgRouter Ev.fabLifeDrop q.src q.dst (q.hops + 256 * q.defl) i)
        ∧ (¬ old → exec (.fabLifeDrop i n) s = .next s))
    ∧ (p.transit = none → exec (.fabGauzeDrop i) s = .next s)
    ∧ (∀ u, p.transit = some u → s.core.mt.started = false ∨ u.since + s.core.fld pgRouter 0x164 8 8 * 1000 < s.core.time → ∃ t, exec (.fabGauzeDrop i) s = .next t ∧ rest t ∧ t.core.port i = { p with transit := none }
        ∧ t.core.reg pgRouter 0x1A4 = cap32 (s.core.reg pgRouter 0x1A4 + 1) ∧ s.raised t pgRouter Ev.fabGauzeDrop u.pkt.slice u.pkt.src u.pkt.dst i)

/-! Power and resets -/

/-- R394, R399, R507 to R521, R527, R535, R584: power, the resets and self-boot. A cold reset clears everything but the non-volatile store and counts itself; a module reset clears all islands but Felt and the router and leaves module memory
cleared by self-boot; a compute reset clears the engines, dispatch and the collective engine and leaves module memory; a router reset and PERST# clear their blocks alone. An open epoch is vetoed first, except where power is lost.
It rests on the model's readings of log entries 2, 30, 31, 44, 60, 65 and 96. -/
def Obligations.PowerAndResets : Prop :=
  ∀ (s : State), s.Wf →
    let p := s.core.pins
    let f := s.core.felt
    let open' := b2n (decide (s.core.ep.st = .opened ∨ s.core.ep.st = .voting))
    let keeps := fun (t : State) => t.core.rt.inc = s.core.rt.inc ∧ t.core.fuse = s.core.fuse ∧ t.core.antiRollback = s.core.antiRollback ∧ t.core.felt.flashA = f.flashA ∧ t.core.felt.flashB = f.flashB ∧ t.core.felt.fwWriting = f.fwWriting
      ∧ ∀ k, k < s.core.dep.slots.length → (t.core.slot k).fenceLog = ((s.core.slot k).fenceLog || (s.core.slot k).fencePend.isSome)
    let bare := fun (t : State) => t.core.mem = [] ∧ t.core.engs = List.replicate 312 {} ∧ t.core.time = 0 ∧ t.core.ep = {} ∧ t.core.dsp = {} ∧ t.core.ce = {} ∧ t.core.lg = {} ∧ t.core.nStacks = 0
      ∧ t.core.lmap = List.replicate 288 {} ∧ keeps t
    let noted := fun (t : State) (kind trigger veto : Nat) => ∃ e ∈ t.core.events.take (t.core.events.length - s.core.events.length), e.page = pgFelt ∧ e.code = Ev.resetEntry ∧ e.d0 = kind ∧ e.d1 = trigger ∧ e.d2 = veto
    let cold := fun (t : State) (trigger : Nat) => bare t ∧ noted t 1 trigger 0 ∧ t.core.reg pgFelt 0x188 = cap32 (s.core.reg pgFelt 0x188 + 1)
    let rom := fun (t : State) (a b : Nat) (up down : PowerSt) => t.core.felt.auth = (a, b)
      ∧ (a = 0 ∨ b = 0 → t.core.felt.running = true ∧ t.core.felt.stage = .waitRel ∧ t.core.felt.imageB = decide (a ≠ 0) ∧ t.core.felt.image = (if a = 0 then f.flashA else f.flashB) ∧ t.core.pwr.st = up)
      ∧ (a ≠ 0 → b ≠ 0 → t.core.felt.running = false ∧ t.core.felt.stage = .rom ∧ t.core.pwr.st = down)
    let boots := fun (i : Instr) (trigger : Nat) (trip : Bool) (a b : Nat) => ∃ t, exec i s = .next t ∧ cold t trigger ∧ t.core.pins.pwrEn = p.pwrEn ∧ t.core.pins.pwrGood = false ∧ t.core.pins.thermTripN = !trip
      ∧ rom t a b (if trip then .tripped else if p.pwrEn then .powering else .standby) (if trip then .tripped else .standby)
    let linkSaid := fun (t : State) => s.core.host.rate ≠ 0 → s.raised t pgHost Ev.hostLinkDown s.core.host.rate s.core.host.width 0 0
    let heldSaid := fun (t : State) (d1 : Nat) => s.core.host.bme = true → s.core.outWork ≠ 0 → s.raised t pgHost Ev.hostOutboundHeld s.core.outWork d1 0 0
    let dark := fun (t : State) => t.core.mem = [] ∧ t.core.ep = {} ∧ t.core.dsp = {} ∧ t.core.lg = {} ∧ (∀ k, k < 312 → (t.eng k).st = .off ∨ (t.eng k).st = .fenced)
    let same := fun (i : Instr) => exec i s = .next s
    (∀ a b, (¬ (f.running = true ∧ p.p48v = true) → boots (.p48vInRange a b) 3 false a b ∧ ∃ t, exec (.p48vInRange a b) s = .next t ∧ t.core.felt.smb = 0x30 + p.slotW % 8) ∧ (f.running = true → p.p48v = true → same (.p48vInRange a b))
      ∧ (f.running = true → boots (.feltResetCold a b) 2 (decide (s.core.pwr.st = .tripped)) a b) ∧ (f.running = false → same (.feltResetCold a b)))
    ∧ (p.p48v = true → ∃ t, exec .p48vLoss s = .next t ∧ bare t ∧ t.core.pwr.st = .off ∧ t.core.pins.p48v = false ∧ t.core.felt = f.cold ∧ t.core.reg pgFelt 0x188 = s.core.reg pgFelt 0x188 % 2 ^ 32)
    ∧ (p.p48v = false → same .p48vLoss)
    ∧ (p.pwrEn = false → s.core.pwr.st = .standby → f.running = true → ∃ t, exec .pwrEnHigh s = .next t ∧ cold t 1 ∧ t.core.pins.pwrEn = true ∧ t.core.pins.pwrGood = false
        ∧ rom t f.auth.1 f.auth.2 .powering .standby ∧ ∀ off ∈ [0x104, 0x108, 0x10C, 0x110], t.core.reg pgFelt off = s.core.reg pgFelt off)
    ∧ (s.core.pwr.st = .powering → ∃ t, step { s with pending := [] } = .next t ∧ t.core.pwr.st = .on ∧ t.core.pins = { p with pwrGood := true })
    ∧ (p.pwrEn = true → same .pwrEnHigh) ∧ (p.pwrEn = false → s.core.pwr.st ≠ .standby ∨ f.running = false → exec .pwrEnHigh s = .next { s with core := { s.core with pins := { p with pwrEn := true } } })
    ∧ (s.core.pwr.st ∈ [.off, .standby] → exec .pwrEnLow s = .next { s with core := { s.core with pins := { p with pwrEn := false } } })
    ∧ (s.core.pwr.st ∉ [.off, .standby] → ∃ t, exec .pwrEnLow s = .next t ∧ dark t ∧ linkSaid t ∧ heldSaid t (b2n s.core.host.d3) ∧ t.core.host = {} ∧ t.core.pwr.st = .standby ∧ t.core.pins = { p with pwrEn := false, pwrGood := false, thermTripN := true } ∧ t.core.time = s.core.time)
    ∧ (∀ tj sensor, (s.core.powered = true → ∃ t, exec (.thermalTrip tj sensor) s = .next t ∧ dark t ∧ linkSaid t ∧ t.core.pwr.st = .tripped ∧ t.core.pins.thermTripN = false ∧ t.core.pins.pwrGood = false
          ∧ s.raised t pgPwr Ev.thermTrip (tj % 256) (sensor % 256) 0 0) ∧ (s.core.powered = false → same (.thermalTrip tj sensor)))
    ∧ (∀ v code, (s.core.pwr.st = .on → s.core.fwdOnly = false →
          (∃ t, exec (.pwrInputFault v) s = .next t ∧ s.raised t pgPwr Ev.pwrInputFault (v % 65536) 1 0 0 ∧ s.raised t pgCal Ev.fwdOnlyEntry 4 s.core.activeEng s.core.healthyStacks 0xFFFFFFFF ∧ t.core.pwr.vin = v % 65536
            ∧ t.core.fwdOnly = true ∧ t.core.pwr.st = .fwdOnly ∧ t.core.mem = [] ∧ t.core.ep = {} ∧ ∀ k, k < 312 → (t.eng k).st = .off ∨ (t.eng k).st = .fenced)
          ∧ ∃ t, exec (.powerStageFault code) s = .next t ∧ s.raised t pgPwr Ev.pwrInputFault s.core.pwr.vin 2 code 0 ∧ t.core.fwdOnly = true ∧ t.core.pwr.st = .fwdOnly)
        ∧ (s.core.pwr.st ≠ .on → exec (.pwrInputFault v) s = .next { s with core := { s.core with pwr := { s.core.pwr with vin := v % 65536 } } } ∧ same (.powerStageFault code)))
    ∧ (p.modResetN = true → s.core.powered = true → f.stage ≠ .waitRel → ∃ t, exec .modResetAssert s = .next t ∧ dark t ∧ linkSaid t ∧ t.core.pins.modResetN = false ∧ t.core.pins.faultN = true ∧ t.core.lmap = List.replicate 288 {} ∧ t.core.nStacks = 0
        ∧ t.core.felt.stage = (if f.linkHalt then .halted else .waitRel) ∧ t.core.rt.inc = s.core.rt.inc ∧ t.core.time = s.core.time ∧ s.raised t pgFelt Ev.resetEntry 2 1 open' 0)
    ∧ (p.modResetN = true → s.core.powered = true → f.stage = .waitRel → exec .modResetAssert s = .next { s with core := { s.core with pins := { p with modResetN := false }, felt := { f with bootWait := none } } })
    ∧ (p.modResetN = true → s.core.powered = false → exec .modResetAssert s = .next { s with core := { s.core with pins := { p with modResetN := false } } })
    ∧ (p.modResetN = false → same .modResetAssert)
    ∧ (∀ b : BootFacts, b.linkA = 0 → b.collA = 0 → s.core.rt.msgs = [] →
        let good := (List.range 32).filter (fun i => (s.core.stk i).st ≠ .fenced && (s.core.stk i).fencePend = false && !b.trainFail.any (fun x => x.1 = i))
        let booted := fun (t : State) => t.core.felt.stage = .booted ∧ t.core.nStacks = good.length ∧ t.core.mem = [] ∧ t.core.felt.announced.isSome
          ∧ s.raised t pgFelt Ev.bootDone b.bootMs good.length t.core.activeEng (b2n t.core.fwdOnly)
        (p.modResetN = false → ¬ (s.core.powered = true ∧ f.running = true ∧ f.stage = .waitRel ∧ f.bootWait = none) → exec (.modResetRelease b) s = .next { s with core := { s.core with pins := { p with modResetN := true } } })
        ∧ (p.modResetN = false → s.core.powered = true → f.running = true → f.stage = .waitRel → f.bootWait = none →
          (s.core.flag pgFelt 0x104 31 = false → ∃ t, exec (.modResetRelease b) s = .next t ∧ t.core.felt.noCoord = true ∧ t.core.felt.stage = .waitRel ∧ s.raised t pgFelt Ev.bootNoCoord 0 0 0 0)
          ∧ (s.core.flag pgFelt 0x104 31 = true → s.core.rt.cmdReset = true → ∃ t, exec (.modResetRelease b) s = .next t ∧ t.core.felt.bootWait = some b ∧ t.core.felt.stage = .waitRel ∧ t.core.rt = s.core.rt ∧ t.core.pins.modResetN = true)
          ∧ (s.core.flag pgFelt 0x104 31 = true → s.core.rt.inReset = true → s.core.rt.cmdReset = false → ∃ t, exec (.modResetRelease b) s = .next t ∧ booted t ∧ t.core.modid = s.core.fld pgFelt 0x104 3 13 * 8 + b.slotW.toNat
              ∧ t.core.rt.inc = (s.core.rt.inc + 1) % 65536 ∧ t.core.rt.inReset = false ∧ t.core.pins.modResetN = true))
        ∧ (p.modResetN = true → same (.modResetRelease b))
        ∧ (f.running = true → s.core.powered = true → p.modResetN = true → f.noCoord = false → f.stage ≠ .waitRel → f.linkHalt = false → ∃ t, exec (.feltResetModule b) s = .next t
            ∧ t.core.mem = [] ∧ s.raised t pgFelt Ev.resetEntry 2 2 open' 0 ∧ (s.core.rt.cmdReset = false → t.core.felt.stage = .booted)
            ∧ (s.core.rt.cmdReset = true → t.core.felt.stage = .waitRel ∧ t.core.felt.bootWait = some b))
        ∧ (f.running = false ∨ s.core.powered = false ∨ p.modResetN = false ∨ f.noCoord = true ∨ f.stage = .waitRel → same (.feltResetModule b)))
    ∧ (f.running = true → s.core.pwr.st = .on → s.core.booted = true → s.core.crst = false → s.core.fwdOnly = false → s.NoBoundary → (∀ d ∈ s.core.dep.slots, d.lentTo = none ∧ d.testFrom = none) → (∀ c ∈ s.core.dep.cls, c = none) → s.core.kat.wait = [] →
        (∀ n k, s.core.slotOf n = some k → (s.core.slot k).st ≠ .fenced) → ∃ t, exec .feltResetCompute s = .next t ∧ t.core.crst = true ∧ t.core.mem = s.core.mem ∧ t.core.dsp = { stopped := s.core.dsp.stopped } ∧ t.core.ce = {} ∧ t.core.ptGroups = []
          ∧ t.core.js.chains = [] ∧ t.core.ts.chains = [] ∧ t.core.lmap = s.core.lmap ∧ s.raised t pgFelt Ev.resetEntry 3 2 open' 0 ∧ (s.core.ep.st = .opened → t.core.ep.st = .rollingBack)
          ∧ ∀ k, k < s.core.engs.length → t.eng k = { st := if (s.eng k).st = .fenced then .fenced else if (s.eng k).st = .off then .off else .sleep })
    ∧ (f.running = false ∨ s.core.pwr.st ≠ .on ∨ s.core.booted = false ∨ s.core.crst = true → same .feltResetCompute)
    ∧ (f.running = true → s.core.powered = true → s.core.rt.inReset = false → ∃ t, exec .feltResetRouter s = .next t ∧ t.core.rt.inReset = true ∧ t.core.rt.cmdReset = true ∧ t.core.rt.inc = s.core.rt.inc
        ∧ t.core.ports = List.replicate 19 {} ∧ t.core.mem = s.core.mem ∧ t.core.on pgRouter = false ∧ s.raised t pgFelt Ev.resetEntry 4 2 open' 0)
    ∧ (f.running = false ∨ s.core.powered = false ∨ s.core.rt.inReset = true → same .feltResetRouter)
    ∧ (∀ a b, s.core.rt.cmdReset = true → s.core.powered = true → f.running = true → f.linkHalt = false →
        (a = 0 ∨ b = 0 → s.core.rt.msgs = [] → f.bootWait = none → ∃ t, exec (.routerResetRelease a b) s = .next t ∧ t.core.rt.inc = (s.core.rt.inc + 1) % 65536 ∧ t.core.rt.inReset = false ∧ t.core.rt.cmdReset = false ∧ t.core.rt.quarWait = true
          ∧ t.core.reg pgRouter 0x108 = f.machine % 2 ^ 32 ∧ t.core.mem = s.core.mem)
        ∧ (a ≠ 0 → b ≠ 0 → ∃ t, exec (.routerResetRelease a b) s = .next t ∧ t.core.felt.stage = .halted ∧ t.core.felt.linkHalt = true ∧ t.core.felt.bootWait = none ∧ s.raised t pgFelt Ev.bootAuthFail 2 1 b 0)
        ∧ (∀ w, a = 0 ∨ b = 0 → f.bootWait = some w → w.collA = 0 → ∃ t, exec (.routerResetRelease a b) s = .next t ∧ t.core.felt.stage = .booted ∧ t.core.felt.bootWait = none ∧ t.core.mem = []
          ∧ t.core.rt.inc = (s.core.rt.inc + 1) % 65536))
    ∧ (∀ a b, s.core.rt.cmdReset = false → same (.routerResetRelease a b))
    ∧ (p.perstN = true → s.core.powered = true → p.modResetN = true → f.stage ≠ .waitRel → ∃ t, exec .perstNAssert s = .next t ∧ t.core.pins.perstN = false ∧ t.core.on pgHost = false ∧ t.core.host.bme = false ∧ t.core.host.d3 = false
        ∧ t.core.sd.active = false ∧ t.core.engs = s.core.engs ∧ t.core.ep.st = s.core.ep.st ∧ s.raised t pgFelt Ev.resetEntry 6 1 0 0 ∧ heldSaid t 0
        ∧ (s.core.sd.active = false → t.core.mem = s.core.mem) ∧ ∀ a, s.core.OutsidePool s.core.ep.pages a → t.byte a = s.byte a)
    ∧ (p.perstN = true → s.core.powered = false ∨ p.modResetN = false ∨ f.stage = .waitRel → exec .perstNAssert s = .next { s with core := { s.core with pins := { p with perstN := false } } })
    ∧ (p.perstN = false → same .perstNAssert) ∧ exec .perstNRelease s = .next { s with core := { s.core with pins := { p with perstN := true } } }

/-! Dependability -/

/-- R446, R453 to R471: a slot is fenced at its kernel boundary, a reserve taking its logical engine or the engine being lost; a slot enters TRIAL and is tested; a classification lapses; tests of the Calico controller fall due, start where their
panel has room, rotate a reserve in, pass, fail and are missed; a control parity error ends in forward-only mode, as does DEP_CMD.FWD_ONLY.
It rests on the model's readings of log entries 56, 57, 75 and 77. -/
def Obligations.Dependability : Prop :=
  ∀ (s : State) (p sl : Nat), s.Wf → p < 6 → sl < 52 → s.core.dep.slots.length = 312 → s.core.engs.length = 312 → s.core.lmap.length = 288 → s.core.fwdOnly = false →
    let k := 52 * p + sl
    let d := s.core.slot k
    let n := s.core.logicalOf k
    let idle := fun (j : Nat) => (s.core.slot j).st ≠ .trial ∧ (s.core.slot j).lentTo = none ∧ (s.core.slot j).testWaits = false
    let others := fun (t : State) (l : List Nat) => (∀ j, j ∉ l → t.core.slot j = s.core.slot j) ∧ ∀ j, j ≠ k → t.eng j = s.eng j
    let entry := fun (r : Nat) (subst : Bool) => ({ valid := true, subst, slot := r % 52 } : LmapEntry)
    let same := fun (i : Instr) => exec i s = .next s
    let fenced := fun (t : State) (cause : Nat) => (t.core.slot k).st = .fenced ∧ (t.core.slot k).fenceLog = true ∧ (t.core.slot k).fencePend = none ∧ t.eng k = { st := .fenced }
      ∧ (∀ off, off < 2 ^ 22 → t.byte (esAddr k off) = 0) ∧ s.raised t pgCal Ev.engFenced cause n (cap32 (s.core.reg pgCal 0x190 + 1)) (slotWord k)
    let taken := fun (t : State) (r : Nat) => t.core.lmap = s.core.lmap.set n (entry r true) ∧ s.raised t pgCal Ev.engSubst n (s.core.lmap.getD n {}).word (entry r true).word (slotWord r)
    let limit := s.core.fld pgCal 0x104 8 8
    let after := s.core.time + s.core.calPeriod
    (∀ j, j ≠ k → idle j ∨ ((s.core.slot j).lentTo = some k ∧ (s.core.slot j).st = .lent ∧ (s.core.slot j).testWaits = false)) → d.lentTo = none →
    (∀ a j, s.core.slotOf a = some j → (s.core.slot j).st ≠ .fenced ∧ ∀ b, s.core.slotOf b = some j → a = b) → s.core.slotIdx p sl = some k →
    ((∀ c, d.fencePend = some c → s.core.atBoundary k = true → (∀ j, idle j) →
        (∀ r, d.st = .active → n ≠ 0x1FF → s.core.reserveOf p = some r → ∃ t, exec (.slotFence p sl) s = .next t ∧ fenced t c ∧ taken t r ∧ t.core.slot r = { s.core.slot r with st := .active, testWaits := false } ∧ others t [k, r])
        ∧ (d.st = .active → n ≠ 0x1FF → s.core.reserveOf p = none → s.core.reserveComes p = false → 192 < s.core.activeEng → (∀ tk ∈ s.core.dsp.tasks, n ∉ tk.desc.engines) → ∃ t, exec (.slotFence p sl) s = .next t ∧ fenced t c
            ∧ t.core.lmap = s.core.lmap.set n { s.core.lmap.getD n {} with valid := false } ∧ s.raised t pgCal Ev.engLost n (s.core.activeEng - 1) 0 (slotWord k) ∧ others t [k])
        ∧ (n = 0x1FF → ∃ t, exec (.slotFence p sl) s = .next t ∧ fenced t c ∧ t.core.lmap = s.core.lmap ∧ others t [k]))
      ∧ (d.fencePend = none ∨ s.core.atBoundary k = false → same (.slotFence p sl))
      ∧ (∀ r, d.trialPend = true → s.core.atBoundary k = true → d.fencePend = none → d.st = .active → n ≠ 0x1FF → s.core.reserveOf p = some r → s.core.on pgCal = true → (∀ j, idle j) → ∃ t, exec (.trialEntry p sl) s = .next t
          ∧ (t.core.slot k).st = .trial ∧ (t.core.slot k).trialPend = false ∧ (t.core.slot k).backing = some n ∧ (t.core.slot k).testFrom.isSome ∧ (t.eng k).st = .test ∧ taken t r ∧ others t [k, r])
      ∧ (d.trialPend = false → same (.trialEntry p sl))
      ∧ (d.st = .active → s.core.atBoundary k = false ∨ d.fencePend.isSome → same (.trialEntry p sl)))
    ∧ (∀ i c, s.core.dep.cls.getD i none = some c → c.slot = k → d.st = .active ∨ d.st = .reserve → (∀ j, idle j) → ∃ t, exec (.depClassLost i) s = .next t ∧ t.core.dep.cls = s.core.dep.cls.set i none
        ∧ s.raised t pgCal Ev.depClassLost c.key.eng c.key.opid c.stage (slotWord k) ∧ others t [k]
        ∧ t.core.slot k = { d with
          transients := s.core.time :: d.transients
          trialPend := d.trialPend && decide (c.stage ≠ 2)
          fencePend := if d.fencePend = none ∧ limit ≤ ((s.core.time :: d.transients).filter (fun x => s.core.time < x + s.core.fld pgCal 0x104 16 8 * hourNs)).length then some 2 else d.fencePend })
    ∧ (∀ i, s.core.dep.cls.getD i none = none → same (.depClassLost i))
    ∧ (∀ i, (i = .calTestDue p sl ∧ s.core.on pgCal = true ∧ s.core.flag pgCal 0x100 0 = true) ∨ (i = .depCmdTestNow p sl ∧ s.Acts pgCal) →
        let begun := fun (t : State) => t.core.slot k = { d with st := .test, testFrom := some d.st, testWaits := false } ∧ (t.eng k).st = .test
        (d.fencePend.isSome ∨ d.testWaits = true ∨ d.st ∉ [.reserve, .active] → same i)
        ∧ (d.fencePend = none → (∀ j, idle j) →
            (d.st = .reserve → n = 0x1FF → s.core.testRoom p = false → exec i s = .next { s with core := s.core.setSlot k { d with testWaits := true } })
            ∧ (d.st = .reserve → n = 0x1FF → s.core.testRoom p = true → ∃ t, exec i s = .next t ∧ begun t ∧ t.core.lmap = s.core.lmap ∧ others t [k])
            ∧ (∀ r, d.st = .active → n ≠ 0x1FF → s.core.flag pgCal 0x100 1 = true → s.core.reserveOf p = some r →
                let lent := { s.core.slot r with st := .lent, lentTo := some k, passed := false, rotEnd := false, testWaits := false }
                (s.core.atBoundary k = false → exec i s = .next { s with core := (s.core.setSlot r lent).setSlot k { d with testWaits := true } })
                ∧ (s.core.atBoundary k = true → s.core.testRoom p = true → ∃ t, exec i s = .next t ∧ begun t ∧ taken t r ∧ t.core.slot r = lent ∧ others t [k, r]))))
    ∧ (s.core.on pgCal = false ∨ s.core.flag pgCal 0x100 0 = false → same (.calTestDue p sl) ∧ same (.calMiss p sl))
    ∧ (∀ phase want found,
        let passed := { d with testFrom := none, misses := 0, untested := false, lastPass := s.core.time, due := after }
        (d.testFrom = none → same (.calTestEnd p sl phase want found))
        ∧ (d.testFrom = some .reserve → n = 0x1FF → d.testWaits = false → (∀ j, j ≠ k → idle j) → exec (.calTestEnd p sl 0 want found) s =
            .next { s with core := ((s.core.setEng k { s.eng k with st := .sleep }).bump pgCal 0x1A0 1).setSlot k { passed with st := .reserve } })
        ∧ (∀ r a, d.testFrom = some .active → n = 0x1FF → d.testWaits = false → r < 312 → r ≠ k → (s.core.slot r).lentTo = some k → (∀ j, j ≠ k → j ≠ r → idle j) → a / 48 = p → s.core.slotOf a = some r → s.core.atBoundary r = true →
            (s.core.slot r).fencePend = none → ∃ t, exec (.calTestEnd p sl 0 want found) s = .next t ∧ t.core.slot k = { passed with st := .active } ∧ (t.core.slot r).st = .reserve ∧ (t.core.slot r).lentTo = none
              ∧ t.core.lmap = s.core.lmap.set a (entry k (decide (k ≠ s.core.homeSlot a))) ∧ (t.eng k).st = .sleep ∧ t.core.reg pgCal 0x1A0 = cap32 (s.core.reg pgCal 0x1A0 + 1) ∧ others t [k, r])
        ∧ (phase ≠ 0 → d.testFrom.isSome → n = 0x1FF → (∀ c ∈ s.core.dep.cls, c = none) → (∀ j, j ≠ k → idle j) → ∃ t, exec (.calTestEnd p sl phase want found) s = .next t ∧ fenced t 3
            ∧ s.raised t pgCal Ev.calFail phase want found (slotWord k) ∧ t.core.reg pgCal 0x1A4 = cap32 (s.core.reg pgCal 0x1A4 + 1) ∧ others t [k]))
    ∧ (s.core.on pgCal = true → s.core.flag pgCal 0x100 0 = true →
        (d.st ∉ [.active, .reserve] → same (.calMiss p sl))
        ∧ (d.st ∈ [.active, .reserve] → (∀ j, j ≠ k → idle j) → s.core.flag pgCal 0x104 7 = false →
            let m := min 3 (d.misses + 1)
            let tells := decide (m = 3) && !d.untested
            ∃ t, exec (.calMiss p sl) s = .next t ∧ s.raised t pgCal Ev.calMiss m (d.due / 1000) 0 (slotWord k) ∧ t.core.reg pgCal 0x1A8 = cap32 (s.core.reg pgCal 0x1A8 + 1)
              ∧ t.core.slot k = { d with misses := m, testWaits := false, untested := d.untested || tells, due := d.due + s.core.fld pgCal 0x100 16 8 * 60 * secNs + s.core.calPeriod }
              ∧ (tells = true → s.raised t pgCal Ev.calUntested (s.core.ageH k) 0 0 (slotWord k)) ∧ others t [k]))
    ∧ (let falls := fun (i : Instr) (cause : Nat) => ∃ t, exec i s = .next t ∧ t.core.fwdOnly = true ∧ t.core.pwr.st = .fwdOnly ∧ t.core.pwr.load = false ∧ t.core.mem = [] ∧ t.core.dsp.stopped = true ∧ (∀ q, q < 8192 → (t.core.queue q).state = .halted) ∧ (∀ j, j < 312 → (t.eng j).st = .off ∨ (t.eng j).st = .fenced)
          ∧ s.raised t pgCal Ev.fwdOnlyEntry cause s.core.activeEng s.core.healthyStacks 0xFFFFFFFF ∧ (cause = 3 → ∀ page off, i = .ctrlParity page off → s.raised t pgCal Ev.ctrlParity page off 0 0xFFFFFFFF)
      (∀ page off, (page ∈ [pgDsp, pgEp, pgColl] → s.core.pwr.st = .on → falls (.ctrlParity page off) 3) ∧ (page ∉ [pgDsp, pgEp, pgColl] ∨ s.core.pwr.st ≠ .on → same (.ctrlParity page off)))
      ∧ (s.Acts pgCal → falls .depCmdFwdOnly 5))
    ∧ (s.Acts pgCal → exec (.depCmdUnfence p sl) s = .next { s with core := s.core.setSlot k { d with fenceLog := false } }
        ∧ ((∀ j, idle j) →
            (s.core.atBoundary k = false → d.st ∉ [.fenced, .fused] → d.fencePend = none → exec (.depCmdFence p sl) s = .next { s with core := s.core.setSlot k { d with fencePend := some 5 } })
            ∧ (s.core.atBoundary k = true → d.st ∉ [.fenced, .fused] → n = 0x1FF → ∃ t, exec (.depCmdFence p sl) s = .next t ∧ fenced t 5 ∧ others t [k])
            ∧ (d.st ∈ [.fenced, .fused] → same (.depCmdFence p sl))))

/-! The service frame, time, power management, the start-up of the machine -/

/-- R324, R443 to R448, R511, R523 to R544: a service frame counts itself, takes telemetry, gathers errors and toggles ALIVE_OUT; the rack tick and time frames steer the count; the throttle and the limiter move the clock and the load; leaders, census
reports and the tables start the machine.
It rests on the model's readings of log entries 8, 29, 32, 61, 78, 80, 81 and 98. -/
def Obligations.FrameAndTime : Prop :=
  ∀ (s : State), s.Wf → s.core.stks.length = 32 → s.core.engs.length = 312 →
    let f := s.core.felt
    let mt := s.core.mt
    let pw := s.core.pwr
    let same := fun (i : Instr) => exec i s = .next s
    let felt := fun (i : Instr) (f' : Felt) => exec i s = .next { s with core := { s.core with felt := f' } }
    let joined := f.running && f.announced.isSome
    let leads := s.core.leads
    let steady := fun (t : FrameFacts) => t.off = none ∧ mt.seen = none ∧ s.core.modid ≠ 0
    let whole := fun (v : Nat) (t : State) => ∃ e ∈ t.core.felt.entries, e.modid = 8 * (s.core.modid / 8) + v
    let base := s.core.reg64 pgFelt 0x130 0x134
    let fits := fun (es : List CensusEntry) => s.core.modid ≠ 0 ∨ ∀ e ∈ es, regionOf (base + 32 * e.modid) ≠ .regs
    let done := fun (t : FrameFacts) (o : Nat) => ∀ d, t.late = some d → o < d
    let noTests := (s.core.on pgCal = false ∨ s.core.flag pgCal 0x100 0 = false) ∧ ∀ c ∈ s.core.dep.cls, c = none
    let calm := (∀ r ∈ f.requests, ∃ src bs, r = .mgmt src bs ∧ (s.core.modid ≠ 0 ∨ bs.length = 72)) ∧ (s.core.modid ≠ 0 ∨ f.updates = [])
    let now := 1000 * s.core.time + 100 * (mt.frac / 100000000).toNat
    (∀ t : FrameFacts, f.running = false → same (.feltServiceFrame t))
    ∧ (∀ t : FrameFacts, f.running = true → ∃ u, exec (.feltServiceFrame t) s = .next u ∧ (t.regPar = [] → t.pathPar = [] → t.tilePar = [] → t.stackCe = [] → calm → noTests ∨ ¬ done t 5 →
        let done := done t
        u.core.felt.frame = f.frame + 1 ∧ u.core.reg pgFelt 0x180 = cap32 (s.core.reg pgFelt 0x180 + 1) ∧ (done 6 → u.core.felt.requests = []) ∧ (¬ done 6 → u.core.felt.requests = f.requests)
        ∧ (done 2 → u.core.pwr = { pw with watts := t.watts % 65536, vin := t.vin % 65536, tj := t.tj % 256, sensor := t.sensor % 256 }) ∧ (¬ done 2 → u.core.pwr = pw)
        ∧ u.core.pins.aliveOut = (if done 3 ∧ (f.frame + 1) % (if s.core.normal then 2 else 4) = 0 then !s.core.pins.aliveOut else s.core.pins.aliveOut)
        ∧ (t.late.isSome → u.core.reg pgFelt 0x184 = cap32 (s.core.reg pgFelt 0x184 + 1))
        ∧ (∀ o, t.late = some o → steady t → (∀ g, f.lateAt = some g → g + 1000 ≤ f.frame + 1) → s.raised u pgFelt Ev.feltFrameLate (cap32 (s.core.reg pgFelt 0x184 + 1)) o 0 0)
        ∧ (∀ src bs, f.requests = [.mgmt src bs] → bs.length = 72 → s.core.booted = true → f.tAct ≠ some (field bs 64 8) → done 6 → u.core.felt.table = bs.take 64 ∧ u.core.felt.tAct = some (field bs 64 8))
        ∧ (∀ i, s.core.tickMaster = true → done 1 → s.core.parentPort = some i → (s.core.port i).st = .up → 64 ≤ (u.core.out.filter (· = .timeFrame i now)).length)
        ∧ (∀ ps, s.core.tickMaster = true → done 1 → mt.started = true → s.core.modid ≠ 0 → mt.seen = some ps ∨ (mt.seen = none ∧ t.off = some (ps + s.core.asym)) → u.core.mt.off = ps ∧ u.core.mt.seen = none
            ∧ (ps = 0 → u.core.mt.rate = mt.rate) ∧ (ps ≠ 0 → 0 < ps.sign * u.core.mt.rate ∧ u.core.mt.rate.natAbs ≤ 100000))
        ∧ (s.core.powered = true → f.requests = [] → (∀ a ∈ t.dramUe, a < s.core.memTop → poisonKey a ∈ u.core.poison) ∧ (∀ k off, (1, k, off) ∈ t.sramUe → k < 312 → off < 2 ^ 22 → poisonKey (esAddr k off) ∈ u.core.poison)
            ∧ (∀ p off, (2, p, off) ∈ t.sramUe → p < 6 → off < 0x3000000 → poisonKey (psAddr p off) ∈ u.core.poison) ∧ (∀ k off, (3, k, off) ∈ t.sramUe → k < 312 → off < 131072 → imKey k (off / 65536) (off % 65536 / 8) ∈ u.core.poison)
            ∧ (∀ kind k off, t.sramCe = [(kind, k, off)] → s.core.dep.sramCe = [] → done 4 → steady t → s.raised u pgCal Ev.sramCe kind 1 off (if kind = 2 then 0xFFFFFFFF else slotWord k))))
      ∧ (s.core.powered = true → f.requests = [] → s.core.dep.slots.length = 312 → t.dramUe = [] → t.sramUe = [] → t.sramCe = [] → t.late = none → steady t →
        (noTests → ∀ i off, t.stackCe = [(i, off)] → t.regPar = [] → t.pathPar = [] → t.tilePar = [] → i < 32 → (s.core.stk i).st ≠ .fenced → u.core.reg (pgStack i) 0x180 = cap32 (s.core.reg (pgStack i) 0x180 + 1)
            ∧ s.raised u (pgStack i) Ev.memCe i ((s.core.stk i).frameCe + 1) off (cap32 (s.core.reg (pgStack i) 0x180 + 1)) ∧ (u.core.stk i).frameCe = 0)
        ∧ (noTests → ∀ path a, t.stackCe = [] → t.regPar = [] → t.pathPar = [(path, a)] → t.tilePar = [] → (∃ v, s.raised u pgCal Ev.pathParity path a v 0xFFFFFFFF) ∧ u.core.reg pgCal 0x19C = cap32 (s.core.reg pgCal 0x19C + 1)
            ∧ (regionOf a = .mem ∨ (∃ k o, regionOf a = .es k o) ∨ (∃ p o, regionOf a = .ps p o) → poisonKey a ∈ u.core.poison ∧ (poisonKey a ∉ s.core.poison → poisonKey a ∈ u.core.once)))
        ∧ (noTests → ∀ k r, t.stackCe = [] → t.regPar = [(k, r)] → t.pathPar = [] → t.tilePar = [] → k < 312 → s.raised u pgCal Ev.pathParity 1 r (65536 + s.core.logicalOf k) (slotWord k))
        ∧ (noTests → ∀ k i kind x, t.stackCe = [] → t.regPar = [] → t.pathPar = [] → t.tilePar = [(k, i, kind)] → k < 312 → (s.eng k).getTile i = some x → (u.eng k).tainted = true ∧ (u.eng k).suspect = ((s.eng k).suspect || decide (kind = 1))
            ∧ ((s.core.slot k).st = .lent → (u.core.slot k).rotEnd = true) ∧ s.raised u pgCal Ev.depSuspect (s.core.logicalOf k * 65536 + i) x.opid x.step (slotWord k))
        ∧ (t.stackCe = [] → t.regPar = [] → t.pathPar = [] → t.tilePar = [] →
          (∀ i c, i < 16 → s.core.dep.cls.getD i none = some c → (∀ j, j ≠ i → s.core.dep.cls.getD j none = none) → c.last + s.core.fld pgCal 0x104 24 8 * secNs < s.core.time →
              u.core.dep.cls.getD i none = none ∧ s.raised u pgCal Ev.depClassLost c.key.eng c.key.opid c.stage (slotWord c.slot))
          ∧ (∀ k, k < 312 → s.core.on pgCal = true → s.core.flag pgCal 0x100 0 = true → (∀ c ∈ s.core.dep.cls, c = none) → (∀ d ∈ s.core.dep.slots, d.st ≠ .trial ∧ d.lentTo = none ∧ d.testWaits = false ∧ d.fencePend = none) →
              (∀ j, j ≠ k → s.core.time < (s.core.slot j).due ∨ (s.core.slot j).st ∉ [.active, .reserve]) → (∀ a j, s.core.slotOf a = some j → (s.core.slot j).st ≠ .fenced ∧ ∀ b, s.core.slotOf b = some j → a = b) →
              let d := s.core.slot k
              let window := s.core.fld pgCal 0x100 16 8 * 60 * secNs
              (d.st = .reserve → s.core.logicalOf k = 0x1FF → d.due ≤ s.core.time → s.core.time ≤ d.due + window → s.core.testRoom (k / 52) = true →
                u.core.slot k = { d with st := .test, testFrom := some .reserve, testWaits := false } ∧ (u.eng k).st = .test)
              ∧ (d.st ∈ [.active, .reserve] → d.due + window < s.core.time → s.core.flag pgCal 0x104 7 = false → s.raised u pgCal Ev.calMiss (min 3 (d.misses + 1)) (d.due / 1000) 0 (slotWord k))))))
    ∧ (let ahead := (s.core.time + 1000000 - s.core.fld pgTime 0x118 0 16 / 100 % 1000000) % 1000000
      let fwd := mt.started = true ∧ 0 < ahead ∧ 1000000 - ahead ≤ ahead
      (f.running = false → same .rackTickEdge)
      ∧ (f.running = true → s.core.tickMaster = true → exec .rackTickEdge s =
          .next (if mt.started && (match mt.lastTick with
              | some t => decide (t / 1000000 < s.core.time / 1000000)
              | none => s.core.time % 1000000 = 0 || decide (mt.rootFrom / 1000000 < s.core.time / 1000000)) then { s with core := { s.core with mt := { mt with lastTick := some s.core.time }, out := .tick :: s.core.out } } else s))
      ∧ (f.running = true → s.core.tickMaster = false → ∃ t, exec .rackTickEdge s = .next t
          ∧ t.core.mt = { mt with lastTick := some t.core.time, locked := true, slew := if mt.started = false then mt.slew else if fwd then 0 else ahead * 1000000000 }
          ∧ t.core.time = s.core.time + (if fwd then 1000000 - ahead else 0) ∧ (¬ fwd → mt.locked = false → s.raised t pgTime Ev.timeLock 0x1F (word32 mt.off) (word32 mt.rate) 0)
          ∧ (¬ fwd → mt.started = true → 1000 < ahead → s.raised t pgTime Ev.timeStep (2 ^ 64 - ahead) ((2 ^ 64 - ahead) / 2 ^ 32) 0 0)))
    ∧ (mt.locked = true → ∃ t, exec .rackTickLoss s = .next t ∧ t.core.mt = { mt with lastTick := none, locked := false, goodFrames := 0 } ∧ t.core.time = s.core.time ∧ s.raised t pgTime Ev.timeUnlock s.core.parentField (word32 mt.off) 2 0)
    ∧ (mt.locked = false → exec .rackTickLoss s = .next { s with core := { s.core with mt := { mt with lastTick := none } } })
    ∧ (∀ i, ((s.core.port i).st ≠ .up ∨ f.running = false ∨ 19 ≤ i → ∀ t, same (.timeFrame i t))
        ∧ ((s.core.port i).st = .up → f.running = true → i < 19 →
          (∀ t1, exec (.timeFrame i (.ask t1)) s = .next { s with core := { s.core with out := .timeAnswer i now now mt.locked :: s.core.out } })
          ∧ (∀ t1 t2 t3 t4, let off := ((t2 - t1) - (t4 - t3)) / 2 - (BitVec.ofNat 32 (s.core.reg pgTime 0x114)).toInt
            exec (.timeFrame i (.answer t1 t2 t3 t4)) s = .next (if mt.started = true ∧ s.core.parentPort = some i then { s with core := { s.core with mt := { mt with off, seen := some off } } } else s))
          ∧ (∀ time l, (s.core.modid ≠ 0 → exec (.timeFrame i (.first time l)) s = .next (if mt.started then s else { s with core := { s.core with time, mt := { mt with started := true } } }))
              ∧ (s.core.modid = 0 → exec (.timeFrame i (.first time l)) s = .next (if l = true ∧ mt.started = true ∧ s.core.time < mt.rootFrom + 10000000 then { s with core := { s.core with time := max s.core.time time } } else s)))))
    ∧ (∀ w tj sensor, (s.core.powered = false → same (.clockThrottleStep w tj sensor))
        ∧ (s.core.powered = true →
          let above := decide (pw.capW < w)
          let hot := decide (s.core.fld pgPwr 0x11C 0 8 ≤ tj)
          ((above || hot) = true → ∃ t, exec (.clockThrottleStep w tj sensor) s = .next t ∧ s.core.Quiet { t.core with pwr := pw } ∧ t.core.pwr = { pw with clk := max 1 (pw.clk - 1), clears := 0, cap := pw.cap || above, throttle := pw.throttle || hot }
              ∧ (above = true → pw.cap = false → s.raised t pgPwr Ev.pwrCapActive w pw.capW 0 0) ∧ (hot = true → pw.throttle = false → s.raised t pgPwr Ev.thermThrottle tj sensor (s.core.fld pgPwr 0x11C 0 8) 0))
          ∧ ((above || hot) = false →
              let clk := if pw.clears = 4 then min 16 (pw.clk + 1) else pw.clk
              exec (.clockThrottleStep w tj sensor) s = .next { s with core := { s.core with pwr := { pw with
                clk, clears := (if pw.clears = 4 then 0 else pw.clears + 1), cap := pw.cap && decide (clk < 16), throttle := pw.throttle && decide (clk < 16) } } })))
    ∧ (∀ w, (pw.st ≠ .on → same (.limiterAdjust w))
        ∧ (pw.st = .on →
          let draw := w * 1000000
          let h := max draw (pw.level - pw.decayW * (s.core.time - pw.loadNs))
          let l := max (pw.floorW * 1000000) h
          let idle := (List.range 312).filter (fun k => (s.eng k).st = .idle && (s.eng k).task.isNone)
          let low := draw < l ∧ l ≤ pw.capW * 1000000
          let dest := fun (load : Bool) (loaded : List Nat) => { s with core := { s.core with pwr := { pw with level := h, loadNs := s.core.time, added := l - draw, load, loaded } } }
          let next := (List.range 312).find? (fun k => (s.eng k).st = .sleep && (s.core.slot k).st = .active)
          let woken := fun (t : State) => ∃ k, next = some k ∧ s.core.on pgDsp = true ∧ t.core.pwr = (dest (!idle.isEmpty) idle).core.pwr ∧ ((t.eng k).st = .idle ∨ k ∈ t.core.dsp.wakes)
          let alone := { dest (!idle.isEmpty) idle with core := { (dest (!idle.isEmpty) idle).core with free := s.core.free + 1 } }
          (¬ low → exec (.limiterAdjust w) s = .next (dest false []))
          ∧ (low → idle ≠ [] → exec (.limiterAdjust w) s = .next alone ∨ ∃ t, exec (.limiterAdjust w) s = .next t ∧ woken t)
          ∧ (low → next = none ∨ s.core.on pgDsp = false → exec (.limiterAdjust w) s = .next alone)
          ∧ (low → idle = [] → next.isSome → s.core.on pgDsp = true → ∃ t, exec (.limiterAdjust w) s = .next t ∧ woken t)))
    ∧ (∀ w e, (f.running = false ∨ 8 ≤ w ∨ s.core.rt.inReset = true → same (.mgmtAnnouncement w e))
        ∧ (f.running = true → w < 8 → s.core.rt.inReset = false →
          let dest := { f with heard := addOnce w f.heard, announced := some (f.announced.getD s.core.time), entries := e :: f.entries.filter (fun x => x.modid ≠ e.modid) }
          (leads = false → felt (.mgmtAnnouncement w e) dest)
          ∧ (leads = false ∨ f.censusSent = false ∨ fits [e] → ∃ t, exec (.mgmtAnnouncement w e) s = .next t ∧ t.core.felt.heard = dest.heard ∧ t.core.felt.entries = dest.entries
            ∧ (leads = true → ∃ x ∈ t.core.rt.msgs, x.type = 7 ∧ x.dst = 8 * (s.core.modid / 8) + w ∧ x.data = entryBytes s.core.ownEntry ++ leBytes 8 s.core.here.w)
            ∧ (leads = true → f.table ≠ [] → ∃ x ∈ t.core.rt.msgs, x.type = 7 ∧ x.dst = 8 * (s.core.modid / 8) + w ∧ x.data = f.table ++ leBytes 8 (f.tAct.getD s.core.time)))))
    ∧ (let low := f.heard.foldl min 8
      (joined = false ∨ f.leader.isSome ∨ s.core.here.w ∉ f.heard → same .boardLeaderChoice)
      ∧ (joined = true → f.leader = none → s.core.here.w ∈ f.heard →
          (low ≠ s.core.here.w → felt .boardLeaderChoice { f with leader := some low, choiceAt := s.core.time })
          ∧ (low = s.core.here.w → fits (f.entries ++ absentEntries 0) → ∃ t, exec .boardLeaderChoice s = .next t ∧ t.core.felt.leader = some low ∧ t.core.felt.choiceAt = s.core.time ∧ s.raised t pgFelt Ev.leader low f.heard.length 0 0
              ∧ ((∃ b ∈ s.core.childBoards, b ∉ f.reports) → t.core.felt.censusSent = f.censusSent) ∧ ((∀ b ∈ s.core.childBoards, b ∈ f.reports) → t.core.felt.censusSent = true)
              ∧ (f.censusSent = false → t.core.felt.censusSent = true → ∀ v, v < 8 → whole v t))))
    ∧ (∀ b es, (joined = false ∨ leads = false ∨ b ∉ s.core.childBoards → ¬ (joined = true ∧ leads = false ∧ s.core.modid = 0 ∧ b = 0) → same (.censusReport b es))
        ∧ (joined = true → leads = false → s.core.modid = 0 → b = 0 → ∀ e, es = [e] →
            exec (.censusReport b es) s = .next { s with core := s.core.feltStore (base + 32 * e.modid) (entryBytes e) })
        ∧ (joined = true → leads = true → b ∈ s.core.childBoards →
          let dest := { f with entries := es ++ f.entries.filter (fun e => !es.any (fun x => x.modid = e.modid)), reports := addOnce b f.reports }
          (f.censusSent = false → (∃ c ∈ s.core.childBoards, c ≠ b ∧ c ∉ f.reports) → felt (.censusReport b es) dest)
          ∧ (fits (dest.entries ++ absentEntries 0) → ∃ t, exec (.censusReport b es) s = .next t ∧ (∀ e ∈ dest.entries, e ∈ t.core.felt.entries) ∧ (f.censusSent = true → t.core.felt.entries = dest.entries) ∧ t.core.felt.reports = dest.reports
            ∧ ((∀ c ∈ s.core.childBoards, c = b ∨ c ∈ f.reports) → t.core.felt.censusSent = true ∧ (f.censusSent = false → ∀ v, v < 8 → whole v t)))))
    ∧ (joined = false ∨ leads = false ∨ f.censusSent = true → same .censusWaitExpiry)
    ∧ (joined = true → leads = true → f.censusSent = false →
        let late := s.core.childBoards.filter (fun b => !f.reports.contains b)
        fits (f.entries ++ (late.map absentEntries).flatten ++ absentEntries 0) → ∃ t, exec .censusWaitExpiry s = .next t ∧ t.core.felt.censusSent = true ∧ t.core.felt.absent = late ∧ (∀ v, v < 8 → whole v t)
          ∧ (∀ b ∈ late, s.raised t pgFelt Ev.censusLate (8 * b) (boardDepth b) 0 0 ∧ ∀ w, w < 8 → ∃ e ∈ t.core.felt.entries, e.modid = 8 * b + w ∧ e.state = 0)
          ∧ (s.core.modid / 8 = 0 → let n := fun (st : Nat) => (t.core.felt.entries.filter (fun e => e.state = st)).length
              s.raised t pgFelt Ev.censusDone (n 1) (n 2) (n 3) (n 0)))
    ∧ (∀ v, s.Open pgFelt →
        let a := s.core.reg pgFelt 0x138 / 64 * 64 + v % 2 ^ 12 * 2 ^ 32
        (s.core.modid = 0 → s.core.booted = true → a + 64 ≤ s.core.memTop → a + 64 ≤ 0x28000000000 → s.core.firstPoison a 64 = none → ∃ t, exec (.feltTableWrite v) s = .next t ∧ t.core.felt.table = (List.range 64).map (fun i => s.byte (a + i))
            ∧ t.core.felt.tAct = some (s.core.time + s.core.dmax * 50000000 + 100000000) ∧ t.core.mem = s.core.mem)
        ∧ (s.core.modid ≠ 0 ∨ s.core.booted = false → ∃ t, exec (.feltTableWrite v) s = .next t ∧ t.core.felt.table = f.table ∧ t.core.felt.tAct = f.tAct ∧ bitAt (t.core.page pgFelt).err 0 = true))
    ∧ (∀ (block : List Byte) T, (s.core.booted = false ∨ f.tAct = some T → same (.tableBlockMessage block T))
        ∧ (s.core.booted = true → f.tAct ≠ some T → (leads = false → s.core.modid ≠ 0 → felt (.tableBlockMessage block T) { f with table := block.map (·.toNat), tAct := some T })
            ∧ ∃ t, exec (.tableBlockMessage block T) s = .next t ∧ t.core.felt.table = block.map (·.toNat) ∧ t.core.felt.tAct = some T))
    ∧ (f.tAct = none ∨ s.core.booted = false ∨ (∃ T, f.tAct = some T ∧ s.core.time < T) → same .tablesActive)
    ∧ (∀ T, f.tAct = some T → s.core.booted = true → T ≤ s.core.time → ∃ t, exec .tablesActive s = .next t ∧ t.core.felt.stage = .ready ∧ t.core.felt.tAct = none ∧ s.raised t pgFelt Ev.tablesActive (T % 2 ^ 32) (T / 2 ^ 32) 0 0
        ∧ (∀ x ∈ tableRegs, ∀ r, regRow .router x.1 = some r → t.core.reg pgRouter x.1 = Nat.land (ofLe ((f.table.drop x.2).take 4)) r.mask % 2 ^ 32)
        ∧ t.core.on pgRouter = (firstFail t.core.routerChecks).isNone ∧ (t.core.page pgRouter).cfgOk = (firstFail t.core.routerChecks).isNone)

/-! The register interface -/

/-- R32, R40, R41, R496, R497, R512, R542, R547 to R569, R580, R582: header commands of every page, register reads and writes of each size (ENG_CTRL of an engine page among them), accesses that are refused, pages
that the Felt domain serves for an island that is off, time-outs, the latched time, the event ring's consumer index. An access finds a sleeping engine awake: its clock starts first.
It rests on the model's readings of log entries 13, 35, 46 to 49, 51, 53 to 55, 58, 59 and 89. -/
def Obligations.Registers : Prop :=
  ∀ (s : State) (pg : Nat) (b : Blk) (inst : Nat), s.Wf → pageBlk pg = some (b, inst) → (b = .engine → (s.eng (slotOfInst inst)).st ≠ .sleep) →
    let p := s.core.page pg
    let same := fun (i : Instr) => exec i s = .next s
    let paged := fun (i : Instr) (p' : Page) => exec i s = .next { s with core := s.core.setPage pg p' }
    let refused := fun (i : Instr) (t : State) (bit code d0 d1 d2 d3 : Nat) => exec i s = .next t ∧ s.core.Quiet t.core ∧ bitAt (t.core.page pg).err bit = true ∧ (t.core.page pg).enabled = p.enabled ∧ (t.core.page pg).busy = p.busy
      ∧ (bitAt p.err bit = false → s.raised t pg code d0 d1 d2 d3)
    let out := fun (m : Mod) (c : Cpl) => ({ s with core := { m with out := .cpl c :: m.out } } : State)
    let failed := firstFail (s.core.enableChecks pg)
    let word := fun (off : Nat) => if off = 0x008 then 0 else s.core.reg pg off
    let unbacked := fun (t : State) (off : Nat) => s.raised t pgHost Ev.addrUnbacked (6 * 65536) ((regAddr pg off) % 2 ^ 32) ((regAddr pg off) / 2 ^ 32) 0
    (∀ who, (who = feltCode ∨ (who = hostCode ∧ s.core.host.d3 = false)) → s.core.reachable pg = true → s.core.shadow pg = false →
        ((b.cfg = false ∨ (p.busy = false ∧ p.enabled = true) → same (.pageEnable who pg)) ∧ (b.cfg = true → p.busy = true → ∃ t, refused (.pageEnable who pg) t 0 Ev.cfgIgnored 0x008 0x10001 who 0)
          ∧ (b.cfg = true → p.busy = false → p.enabled = false →
              (∀ off, failed = some off → ∃ t, exec (.pageEnable who pg) s = .next t ∧ t.core.on pg = false ∧ (t.core.page pg).cfgOk = false ∧ bitAt (t.core.page pg).err 1 = true ∧ (bitAt p.err 1 = false → s.raised t pg Ev.cfgMismatch off 1 (word off) 0))
              ∧ (failed = none → pg ≠ pgLog ∨ s.core.flag pgLog 0x100 2 = false → ∃ t, exec (.pageEnable who pg) s = .next t ∧ t.core.on pg = true ∧ (t.core.page pg).cfgOk = true ∧ (t.core.page pg).busy = false ∧ t.core.mem = s.core.mem
                  ∧ (pg = pgLog → t.core.lg.restored = false ∧ t.core.lg.forced = false))
              ∧ (failed = none → pg = pgLog → s.core.flag pgLog 0x100 2 = true → s.core.flag pgLog 0x100 3 = false →
                  s.core.lgBase + 128 ≤ s.core.memTop → s.core.memTop ≤ 0x28000000000 → s.core.firstPoison s.core.lgBase 128 = none →
                  let c := fun (off n : Nat) => s.number (s.core.lgBase + off) n
                  let stamps := c 0 4 = c 4 4 ∧ c 0 4 = c 64 4 ∧ c 0 4 = s.core.rngEpoch
                  (stamps ∧ c 16 8 = s.core.rngSeed.toNat → ∃ t, exec (.pageEnable who pg) s = .next t ∧ t.core.on pg = true ∧ t.core.lg.restored = true ∧ t.core.lg.forced = false ∧ t.core.lg.next = c 8 4)
                  ∧ (¬ (stamps ∧ c 16 8 = s.core.rngSeed.toNat) → ∃ t, exec (.pageEnable who pg) s = .next t ∧ t.core.on pg = false ∧ (t.core.page pg).cfgOk = false ∧ t.core.mem = s.core.mem
                      ∧ (stamps → s.raised t pgLog Ev.stepSkew (c 0 4) (c 64 4) s.core.rngEpoch 2) ∧ (¬ stamps → s.raised t pgLog Ev.stepSkew (c 0 4) (c 64 4) s.core.rngEpoch 1)))))
        ∧ ((b.cfg = false ∨ p.busy = true ∨ p.enabled = false → same (.pageDisable who pg))
          ∧ (b.cfg = true → p.busy = false → p.enabled = true → (b = .ep ∨ b = .lg) → s.core.ep.isOpen = true → ∃ t, refused (.pageDisable who pg) t 0 Ev.cfgIgnored 0x008 0x10000 who 0)
          ∧ (b.cfg = true → p.busy = false → p.enabled = true → ¬ ((b = .ep ∨ b = .lg) ∧ s.core.ep.isOpen = true) → paged (.pageDisable who pg) { p with busy := true }))
        ∧ (let tau := s.core.reg pgEp 0x904
          let c := s.core.fld pgPwr 0x110 0 13
          let f := s.core.fld pgPwr 0x114 0 13
          let d := s.core.fld pgPwr 0x118 0 13
          let pw := s.core.pwr
          (b ∉ [.ep, .pwr] → same (.pageCommit who pg))
          ∧ (b = .ep → exec (.pageCommit who pg) s = .next (if tau = s.core.clip.tauPending.getD s.core.clip.tau then s else
              { s with core := { s.core.setPage pg { p with cfgOk := true } with clip := { s.core.clip with tauPending := some tau } } }))
          ∧ (b = .pwr → (c = pw.capW ∧ f = pw.floorW ∧ d = pw.decayW → same (.pageCommit who pg))
            ∧ (¬ (c = pw.capW ∧ f = pw.floorW ∧ d = pw.decayW) →
                (f ≤ c → 1000 ≤ c → c ≤ 5200 → exec (.pageCommit who pg) s = .next { s with core := { s.core.setPage pg { p with cfgOk := true } with pwr := { pw with capW := c, floorW := f, decayW := d } } })
                ∧ (c < f → ∃ t, refused (.pageCommit who pg) t 1 Ev.cfgMismatch 0x114 2 (s.core.reg pgPwr 0x114) 0 ∧ (t.core.page pg).cfgOk = false)
                ∧ (f ≤ c → c < 1000 ∨ 5200 < c → ∃ t, refused (.pageCommit who pg) t 1 Ev.cfgMismatch 0x110 2 (s.core.reg pgPwr 0x110) 0 ∧ (t.core.page pg).cfgOk = false))))
        ∧ (b ≠ .port → (b.cfg = false → same (.pageSoftReset who pg)) ∧ (b.cfg = true → p.enabled = true ∨ p.busy = true → ∃ t, refused (.pageSoftReset who pg) t 0 Ev.cfgIgnored 0x008 2 who 0)
            ∧ (b.cfg = true → p.enabled = false → p.busy = false → ∃ t, exec (.pageSoftReset who pg) s = .next t ∧ t.core.page pg = { p with err := 0, cfgOk := false }
                ∧ (∀ q off, off < 4096 → t.core.reg q off = (if q = pg ∧ (regRow b off).isSome then regReset (pg * 4096 + off) else s.core.reg q off)) ∧ t.core.mem = s.core.mem))
        ∧ (b = .port → s.core.ports.length = 19 → (s.core.rt.inReset = true ∨ (s.core.powered = true ∧ s.core.felt.stage = .waitRel) → same (.pageSoftReset who pg))
            ∧ (s.core.rt.inReset = false → s.core.powered = false ∨ s.core.felt.stage ≠ .waitRel → ∃ t, exec (.pageSoftReset who pg) s = .next t ∧ t.core.on pg = true ∧ (t.core.port inst).st = .down ∧ (t.core.port inst).buf = [] ∧ (t.core.page pg).err = 0 ∧ s.raised t pgFelt Ev.resetEntry 5 2 0 0
                ∧ ∀ off, off < 4096 → t.core.reg pg off = regReset (pg * 4096 + off)))
        ∧ (∀ off v r, regRow b off = some r → r.acc = .cfg → 0x100 ≤ off → off < 4096 → off % 4 = 0 → ¬ (b = .cal ∧ s.core.fwdOnly = true) →
            (s.core.enabledOf pg = false → p.busy = false → ∃ t, exec (.registerWrite who pg off 4 v) s = .next t ∧ (∀ q x, x < 4096 → t.core.reg q x = if q = pg ∧ x = off then Nat.land (v % 2 ^ 32) r.mask else s.core.reg q x)
              ∧ (pg ≠ pgRouter → t = { s with core := s.core.setReg pg off (Nat.land (v % 2 ^ 32) r.mask) }))
            ∧ (s.core.enabledOf pg = true ∨ p.busy = true → ∃ t, refused (.registerWrite who pg off 4 v) t 0 Ev.cfgIgnored off v who 0))
        ∧ (∀ off size v, off < 4096 → ¬ (size = 4 ∧ off % 4 = 0) → ¬ (size = 8 ∧ off % 8 = 0) → ∃ t, exec (.registerWrite who pg off size v) s = .next t ∧ bitAt (t.core.page pg).err 2 = true
            ∧ (bitAt p.err 2 = false → s.raised t pg Ev.regAccessBad (pg * 4096 + off) size who 2) ∧ (who = hostCode → t.core.out.head? = some (.cpl .ur))))
    ∧ (p.busy = true → p.enabled = true → s.core.stopped pg = true → ∃ t, exec (.pageDisableDone pg) s = .next t ∧ (t.core.page pg).enabled = false ∧ (t.core.page pg).busy = false ∧ t.core.mem = s.core.mem)
    ∧ (p.busy = false ∨ p.enabled = false ∨ s.core.stopped pg = false → same (.pageDisableDone pg))
    ∧ (s.Open pg →
        (∀ v, paged (.pgErrClear pg v) { p with err := Nat.land p.err (Nat.xor 0x10F (Nat.land (v % 2 ^ 32) 0x10F)) })
        ∧ (b = .cal ∧ s.core.fwdOnly = true → same (.pageSnap pg))
        ∧ (¬ (b = .cal ∧ s.core.fwdOnly = true) → ∃ t, exec (.pageSnap pg) s = .next t ∧ t.core.page pg = { p with snapSeq := (p.snapSeq + 1) % 2 ^ 16 } ∧ (∀ c ∈ blkCounters b, t.core.reg pg c.2 = s.core.reg pg c.1 % 2 ^ 32)
            ∧ (b = .mg → t.core.reg pg 0x020 = s.core.time % 2 ^ 32 ∧ t.core.reg pg 0x024 = s.core.time / 2 ^ 32 % 2 ^ 32) ∧ t.core.mem = s.core.mem)
        ∧ (∀ x ∈ [(0x000, b.type * 2 ^ 24 + inst * 256 + 1), (0x008, b2n (s.core.enabledOf pg)), (0x00C, s.core.pgStatus pg b), (0x010, p.err), (0x014, p.errEn), (0x01C, p.snapSeq)],
            exec (.registerRead hostCode pg x.1 4) s = .next (out s.core (.data (leBytes 4 x.2))))
        ∧ (b = .mg → exec (.registerRead hostCode pg 0x100 4) s = .next (out s.core (.data (leBytes 4 s.core.modid)))
            ∧ exec (.registerRead hostCode pg 0x104 4) s = .next (out s.core (.data (leBytes 4 (2 ^ 31 * b2n s.core.fwdOnly + 65536 * s.core.nStacks + s.core.activeEng))))
            ∧ ∀ n, n < 288 → exec (.registerRead hostCode pg (0x400 + 4 * n) 4) s = .next (out s.core (.data (leBytes 4 (s.core.lmap.getD n {}).word))))
        ∧ (b = .ep → exec (.registerRead hostCode pg 0x1C8 8) s = .next (out s.core (.data (leBytes 4 s.core.ep.step ++ leBytes 4 s.core.ep.sh.toNat))))
        ∧ (b = .mg → ∃ t, exec .pageSnapAll s = .next t ∧ t.core.mem = s.core.mem ∧ ∀ q, (pageBlk q).isSome → s.core.reachable q = true →
            (t.core.page q).snapSeq = (if s.core.shadow q = true ∨ (q = pgCal ∧ s.core.fwdOnly = true) then (s.core.page q).snapSeq else ((s.core.page q).snapSeq + 1) % 2 ^ 16))
        ∧ (b = .mt → exec .mtLoRead s = .next (out { s.core with mt := { s.core.mt with hiLatch := s.core.time / 2 ^ 32 % 2 ^ 32 } } (.data (leBytes 4 (s.core.time % 2 ^ 32)))))
        ∧ (b = .host → ∀ v, (s.Acts pg → s.core.host.evWait = [] → s.core.host.evLost = 0 → exec (.hiEvrAck v) s = .next { s with core := { s.core with host := { s.core.host with cons := v % 2 ^ 32 } } })
            ∧ (s.core.on pg = false ∨ p.busy = true → ∃ t, refused (.hiEvrAck v) t 0 Ev.cfgIgnored 0x124 v hostCode 0)))
    ∧ (s.core.host.d3 = false → s.core.reachable pg = true → s.core.shadow pg = true → ∀ off, off < 4096 → off % 4 = 0 →
        exec (.registerRead hostCode pg off 4) s = .next (out s.core (.data (leBytes 4 (if off = 0 then b.type * 2 ^ 24 + inst * 256 + 1 else if off = 4 then s.core.pgFeat pg b else s.core.shadowReg b inst off))))
        ∧ ∀ v, (p.offSaid = true → same (.registerWrite hostCode pg off 4 v)) ∧ (p.offSaid = false → ∃ t, exec (.registerWrite hostCode pg off 4 v) s = .next t ∧ s.core.Quiet t.core ∧ (t.core.page pg).offSaid = true
            ∧ s.raised t pg Ev.regPageOff off (v % 2 ^ 32) hostCode (s.core.islandState b inst)))
    ∧ (s.core.host.d3 = false → s.core.reachable pg = false → ∀ off, off < 4096 → off % 4 = 0 → (∃ t, exec (.registerRead hostCode pg off 4) s = .next t ∧ unbacked t off ∧ t.core.out.head? = some (.cpl .ur))
        ∧ ∀ v, ∃ t, exec (.registerWrite hostCode pg off 4 v) s = .next t ∧ unbacked t off)
    ∧ (s.core.host.d3 = true → ∀ off size v, off < 4096 → same (.registerWrite hostCode pg off size v) ∧ ∃ t, exec (.registerRead hostCode pg off size) s = .next t ∧ t.core.out = .cpl .ur :: s.core.out)
    ∧ (∀ who off, off < 4096 →
        let g := s.core.page pgGlobal
        let late := fun (t : State) (at' rw : Nat) => bitAt (t.core.page pgGlobal).err 3 = true ∧ (bitAt g.err 3 = false → s.raised t pgGlobal Ev.regTimeout pg at' who rw)
        let whole := fun (size : Nat) => (size = 4 ∧ off % 4 = 0) ∨ (size = 8 ∧ off % 8 = 0)
        (∀ size, (∀ v, exec (.regTimeout who pg ⟨off, size, false, false⟩ (some v)) s = exec (.registerWrite who pg off size v) s)
          ∧ exec (.regTimeout who pg ⟨off, size, false, false⟩ none) s = exec (.registerRead who pg off size) s)
        ∧ (¬ (who = hostCode ∧ s.core.host.d3 = true) →
          (∀ size v hi, whole size → size = 4 ∨ hi = true → ∃ t, exec (.regTimeout who pg ⟨off, size, true, hi⟩ (some v)) s = .next t ∧ s.core.Quiet t.core ∧ late t off 2)
          ∧ (∀ size hi, whole size → ∃ t, exec (.regTimeout who pg ⟨off, size, true, hi⟩ none) s = .next t ∧ (size = 4 ∨ hi = true → late t off 1) ∧ (who = hostCode → t.core.out.head? = some (.cpl .ca))
            ∧ (who = feltCode → size = 4 → t.core.out.head? = some (.mctp [255, 255, 255, 255])))
          ∧ (off % 8 = 0 → s.core.reachable pg = true → s.core.shadow pg = false →
            (∀ r v, regRow b (off + 4) = some r → r.acc = .cfg → 0x100 ≤ off → ¬ (b = .cal ∧ s.core.fwdOnly = true) → s.core.enabledOf pg = false → p.busy = false → ∃ t, exec (.regTimeout who pg ⟨off, 8, true, false⟩ (some v)) s = .next t
              ∧ late t off 2 ∧ t.core.reg pg (off + 4) = Nat.land (v / 2 ^ 32 % 2 ^ 32) r.mask ∧ t.core.reg pg off = s.core.reg pg off)
            ∧ (b = .mg → off = 0x100 → who = hostCode → ∃ t, exec (.regTimeout who pg ⟨off, 8, false, true⟩ none) s = .next t ∧ late t 0x104 1 ∧ t.core.out.head? = some (.cpl .ca)))))
    ∧ ∀ k, k < 312 → s.core.engs.length = 312 → s.Open (pgSlot k) →
        let e := s.eng k
        let st := if e.st = .sleep then .idle else e.st
        ∃ t, exec (.registerRead hostCode (pgSlot k) 0x100 4) s = .next t ∧ (t.eng k) = { e with st } ∧ t.core.out = .cpl (.data (leBytes 4 (st.code * 2 ^ 29 + b2n e.suspect * 2 ^ 28
          + ((List.range 8).map (fun i => b2n (e.getTile i).isSome * 2 ^ i)).sum * 2 ^ 20 + s.core.logicalOf k))) :: s.core.out
        ∧ (e.st = .sleep → ((s.core.wakeNow k).eng k).st = .idle ∧ ∀ off v, off < 4096 → off % 4 = 0 → ∀ i ∈ [.pageEnable hostCode (pgSlot k), .pageDisable hostCode (pgSlot k), .pageCommit hostCode (pgSlot k),
            .pageSoftReset hostCode (pgSlot k), .pageSnap (pgSlot k), .pgErrClear (pgSlot k) v, .registerWrite hostCode (pgSlot k) off 4 v, .registerRead hostCode (pgSlot k) off 4], exec i s = exec i { s with core := s.core.wakeNow k })

/-! The host port and management requests -/

/-- R331, R487, R492, R514, R523, R524, R574 to R586, R599: BAR2 reads and writes; BAR4 with the MSI-X table and the pending bits; function-level reset, D3hot and Bus Master Enable; the link; requests over MCTP, which join the
queue of the Felt firmware (the ROM in recovery takes an image at once), and what a service frame does for each after its periodic work. An unlock opens the other instructions of the JTAG port.
It rests on the model's readings of log entries 13, 33, 45, 47, 50, 52, 90, 96 and 98. -/
def Obligations.HostPort : Prop :=
  ∀ (s : State), s.Wf →
    let h := s.core.host
    let f := s.core.felt
    let same := fun (i : Instr) => exec i s = .next s
    let runs := s.core.hostRuns = true
    let mctp := fun (m : Mod) (bs : List Nat) => ({ s with core := { m with out := .mctp bs :: m.out } } : State)
    let flashed := fun (x : Felt) (c : Bool) (image : List Nat) (last : Bool) (found : Nat) => ({ x with
      flashA := if c then x.flashA else image, flashB := if c then image else x.flashB, auth := if c then (x.auth.1, found) else (found, x.auth.2), fwWriting := if last then none else some (b2n c) } : Felt)
    let work := s.core.outWork
    let held := fun (t : State) (d3 : Bool) => (work ≠ 0 → s.raised t pgHost Ev.hostOutboundHeld work (b2n d3) 0 0)
    let kept := fun (t : State) => (s.core.sd.active = false → t.core.mem = s.core.mem) ∧ ∀ a, s.core.OutsidePool s.core.ep.pages a → t.byte a = s.byte a
    let snapEnds := fun (t : State) => s.core.sd.active = true → t.core.sd.active = false ∧ t.core.sd.aborted = true
    let back := fun (t : State) => t.core.host.d3 = false ∧ t.core.host.bme = true ∧ (s.core.on pgHost = true → t.core.host.msixPend = [] ∧ ∀ v ∈ h.msixPend, .msix v ∈ t.core.out)
    let reset := fun (t : State) (d3 : Bool) => t.core.host.d3 = d3 ∧ t.core.host.bme = false ∧ t.core.host.rate = h.rate ∧ t.core.host.width = h.width ∧ t.core.host.flit = h.flit ∧ t.core.on pgHost = false
      ∧ t.core.engs = s.core.engs ∧ kept t ∧ s.raised t pgFelt Ev.resetEntry 6 2 0 0
    (∀ off len,
        let a := s.core.fld pgHost 0x108 0 12 * 0x40000000 + off
        (s.core.powered = false ∨ h.bar2 * 0x40000000 < off + len → same (.bar2Read off len))
        ∧ (s.core.powered = true → off + len ≤ h.bar2 * 0x40000000 →
          (s.core.on pgHost = false ∨ h.d3 = true → ∃ t, exec (.bar2Read off len) s = .next t ∧ t.core.out = .cpl .ur :: s.core.out ∧ t.core.reg pgHost 0x188 = cap32 (s.core.reg pgHost 0x188 + 1))
          ∧ (s.core.on pgHost = true → h.d3 = false → 0 < len →
              (a + len ≤ s.core.memTop → s.core.memTop ≤ 0x28000000000 → s.core.firstPoison a len = none →
                exec (.bar2Read off len) s = .next { s with core := { s.core with out := .cpl (.data ((List.range len).map (fun i => s.byte (a + i)))) :: s.core.out } })
              ∧ (a + len ≤ s.core.memTop → s.core.memTop ≤ 0x28000000000 → ∀ x, s.core.firstPoison a len = some x → ∃ t, exec (.bar2Read off len) s = .next t ∧ t.core.out.head? = some (.cpl .poisoned)
                  ∧ s.raised t pgHost Ev.hostPoisonSent (x % 2 ^ 32) (x / 2 ^ 32) 0 0 ∧ t.core.mem = s.core.mem)
              ∧ (s.core.memTop ≤ a → a < 0x28000000000 → ∃ t, exec (.bar2Read off len) s = .next t ∧ t.core.out.head? = some (.cpl .ur) ∧ s.raised t pgHost Ev.addrUnbacked (6 * 65536) (a % 2 ^ 32) (a / 2 ^ 32) 0))))
    ∧ (∀ off (data : List Byte),
        let a := s.core.fld pgHost 0x108 0 12 * 0x40000000 + off
        (s.core.powered = false ∨ h.bar2 * 0x40000000 < off + data.length ∨ s.core.on pgHost = false ∨ h.d3 = true → same (.bar2Write off data))
        ∧ (s.core.powered = true → off + data.length ≤ h.bar2 * 0x40000000 → s.core.on pgHost = true → h.d3 = false → data ≠ [] → a + data.length ≤ s.core.memTop → s.core.memTop ≤ 0x28000000000 →
            (∀ q, a / 65536 ≤ q → q ≤ (a + data.length - 1) / 65536 → s.core.isProt q = false) → (∀ k ∈ s.core.stks, k.st ≠ .failed) → ∃ t, exec (.bar2Write off data) s = .next t ∧ t.core.out = s.core.out ∧ t.core.events = s.core.events
              ∧ (∀ i v, data[i]? = some v → t.byte (a + i) = v.toNat) ∧ ∀ x, x < a ∨ a + data.length ≤ x → t.byte x = s.byte x))
    ∧ (runs → ∃ t, exec .functionLevelReset s = .next t ∧ reset t false ∧ (h.bme = true → held t false) ∧ (s.core.sd.active = true → t.core.sd.active = false))
    ∧ (runs → h.d3 = false → ∃ t, exec .d3hotEntry s = .next t ∧ reset t true ∧ (h.bme = true → held t true) ∧ (s.core.sd.active = true → t.core.sd.active = false))
    ∧ (¬ runs ∨ h.d3 = true → same .d3hotEntry) ∧ (¬ runs → same .functionLevelReset)
    ∧ (runs → h.d3 = true → h.bme = false → exec .d3hotExit s = .next { s with core := { s.core with host := { h with d3 := false } } })
    ∧ (runs → h.d3 = true → h.bme = true → ∃ t, exec .d3hotExit s = .next t ∧ back t)
    ∧ (¬ runs ∨ h.d3 = false → same .d3hotExit)
    ∧ (h.bme = true → ∃ t, exec .busMasterDisable s = .next t ∧ t.core.host.bme = false ∧ held t h.d3 ∧ snapEnds t ∧ kept t) ∧ (h.bme = false → same .busMasterDisable)
    ∧ (runs → h.bme = false → h.d3 = false → ∃ t, exec .busMasterEnable s = .next t ∧ back t) ∧ (runs → h.bme = false → h.d3 = true → exec .busMasterEnable s = .next { s with core := { s.core with host := { h with bme := true } } })
    ∧ (¬ runs ∨ h.bme = true → same .busMasterEnable)
    ∧ (∀ rate width flit,
        let trains := runs ∧ 1 ≤ rate ∧ rate ≤ 6 ∧ width ∈ [1, 2, 4, 8, 16]
        (¬ trains → same (.hostLinkUp rate width flit))
        ∧ (trains → ∃ t, exec (.hostLinkUp rate width flit) s = .next t ∧ t.core.host.rate = rate ∧ t.core.host.width = width ∧ t.core.host.flit = flit ∧ s.raised t pgHost Ev.hostLinkUp rate width (b2n flit) 0
            ∧ (rate < 6 ∨ width < 16 → s.raised t pgHost Ev.hostLinkDegraded rate width 0 0)))
    ∧ (h.rate = 0 → same .hostLinkDown)
    ∧ (h.rate ≠ 0 → ∃ t, exec .hostLinkDown s = .next t ∧ t.core.host.rate = 0 ∧ t.core.host.width = 0 ∧ s.raised t pgHost Ev.hostLinkDown h.rate h.width 0 0 ∧ snapEnds t)
    ∧ (∀ status hdr, (runs → ∃ t, exec (.hostAerUncorr status hdr) s = .next t ∧ (s.core.sd.active = false ∨ badCompletion status = false → s.core.Quiet t.core)
          ∧ (badCompletion status = true → snapEnds t ∧ (s.core.sd.active = true → s.raised t pgSnap Ev.snapHostError s.core.sd.step 4 s.core.sd.drained.length 0)) ∧ s.raised t pgHost Ev.hostAerUncorr status hdr 0 0 ∧ bitAt (t.core.page pgHost).err 8 = true) ∧ (¬ runs → same (.hostAerUncorr status hdr)))
    ∧ (let requests := fun (c : Bool) (image : List Byte) (last : Bool) (pg off v n : Nat) (x : Option UnlockToken) => ([(.mctpReadRegister pg off, .readReg pg off), (.mctpWriteRegister pg off v, .writeReg pg off v), (.mctpReadTelemetry, .telemetry),
          (.mctpReadFeltLog n, .readLog n), (.mctpDebugUnlock x, .unlock x), (.mctpReadCensus, .census)] : List (Instr × FeltReq))
          ++ if f.running then [(.mctpWriteFirmware c image last, .firmware c (image.map (·.toNat)) last)] else []
      (s.core.pins.p48v = false → ∀ c image last, same (.mctpWriteFirmware c image last))
      ∧ ∀ c image last pg off v n x, ∀ i ∈ requests c image last pg off v n x, exec i.1 s = .next
          (if s.core.pins.p48v && f.running && decide (f.requests.length < 256) then { s with core := { s.core with felt := { f with requests := f.requests ++ [i.2] } } } else s))
    ∧ (s.core.pins.p48v = true → f.running = false → ∀ (c : Bool) (image : List Byte) (last : Bool), (f.fwWriting ≠ some (b2n c) → ∃ x, x < 3 ∧ exec (.mctpWriteFirmware c image last) s = .next (mctp
        { s.core with free := s.core.free + 1, felt := flashed f c (image.map (·.toNat)) last x } []))
      ∧ (f.fwWriting = some (b2n c) → exec (.mctpWriteFirmware c image last) s = .next (if last then mctp { s.core with felt := { f with fwWriting := none } } [] else mctp s.core [1])))
    ∧ (∀ t : FrameFacts, f.running = true → t.late = none →
        let w := s.core.frameWork t
        let u : Mod := { w with felt := { w.felt with requests := [] } }
        let g := w.felt
        let serves := fun (r : FeltReq) (m : State) => g.requests = [r] → exec (.feltServiceFrame t) s = .next m
        g.updates = [] → g.again = [] →
        (∀ pg b i, pageBlk pg = some (b, i) → b ≠ .engine → u.reachable pg = true → serves (.readReg pg 0x000) (mctp u (leBytes 4 (b.type * 2 ^ 24 + i * 256 + 1))))
        ∧ (∀ pg, pageBlk pg ≠ none → u.reachable pg = false → g.requests = [.readReg pg 0x000] → ∃ m, exec (.feltServiceFrame t) s = .next m ∧ m.core.out.head? = some (.mctp [1])
            ∧ ({ s with core := w } : State).raised m pgFelt Ev.addrUnbacked (8 * 65536) (regAddr pg 0 % 2 ^ 32) (regAddr pg 0 / 2 ^ 32) 0)
        ∧ (∀ off v r, regRow .pwr off = some r → r.acc = .cfg → u.reachable pgPwr = true → u.on pgPwr = false → (u.page pgPwr).busy = false → off < 4096 → off % 4 = 0 → 0x100 ≤ off →
            serves (.writeReg pgPwr off v) (mctp (u.setReg pgPwr off (Nat.land (v % 2 ^ 32) r.mask)) []))
        ∧ (∃ v : Nat, serves .telemetry (mctp { u with free := u.free + 1 } (leBytes 4 (u.pwr.watts + 65536 * u.pwr.vin) ++ leBytes 4 (u.pwr.tj + 256 * u.pwr.sensor) ++ leBytes 8 v)))
        ∧ (∀ n, g.requests = [.readLog n] → let old := g.log.reverse
            ∃ m, exec (.feltServiceFrame t) s = .next m ∧ m.core.felt.log.map (·.1) = g.log.map (·.1)
              ∧ m.core.out = .mctp ((((old.filter (fun x => !x.2)).take n).map (fun x => x.1.bytes)).flatten) :: u.out
              ∧ (m.core.felt.log.filter (fun x => !x.2)).length = (g.log.filter (fun x => !x.2)).length - n)
        ∧ (∃ v, v ≠ 0 ∧ serves (.unlock none) (mctp { u with free := u.free + 1, felt := { u.felt with challenge := v } } (leBytes 9 v)))
        ∧ (∀ x : UnlockToken, let right := x.signed = true ∧ x.serial = Config.serial ∧ x.challenge = g.challenge ∧ g.challenge ≠ 0
            (right → g.requests = [.unlock (some x)] → ∃ m, exec (.feltServiceFrame t) s = .next m ∧ m.core.felt.debugOpen = true ∧ m.core.jtagOpen = true ∧ m.core.out.head? = some (.mctp [])
              ∧ ({ s with core := w } : State).raised m pgFelt Ev.debugUnlock (x.serial.toNat % 2 ^ 32) 0 0 0)
            ∧ (¬ right → serves (.unlock (some x)) (mctp u [1])))
        ∧ serves .census (mctp u (if u.booted then entryBytes u.ownEntry else [1]))
        ∧ ∀ (c : Bool) (image : List Nat) (last : Bool),
            (g.running = true → c = g.imageB → serves (.firmware c image last) (mctp u [1]))
            ∧ (¬ (g.running = true ∧ c = g.imageB) →
                (g.fwWriting ≠ some (b2n c) → ∃ x, x < 3 ∧ serves (.firmware c image last) (mctp { u with free := u.free + 1, felt := flashed u.felt c image last x } []))
                ∧ (g.fwWriting = some (b2n c) → serves (.firmware c image last) (if last then mctp { u with felt := { u.felt with fwWriting := none } } [] else mctp u [1]))))
    ∧ ∀ pg off x size v, pg * 4096 + off = 0x4000000 + x → x < 0x10000 →
        let fits := (size = 4 ∧ x % 4 = 0) ∨ (size = 8 ∧ x % 8 = 0)
        let word := fun (y : Nat) => if y < 0x8000 then spRead 0 h.bar4 y else if y < 0x8100 then ((List.range 32).map (fun b => if h.msixPend.contains (8 * (y - 0x8000) + b) then 2 ^ b else 0)).sum else 0
        (s.core.powered = false → same (.registerRead hostCode pg off size) ∧ same (.registerWrite hostCode pg off size v))
        ∧ (∀ who, who ≠ hostCode → same (.registerRead who pg off size) ∧ same (.registerWrite who pg off size v))
        ∧ (s.core.powered = true → h.d3 = true ∨ ¬ fits → same (.registerWrite hostCode pg off size v) ∧ ∃ t, exec (.registerRead hostCode pg off size) s = .next t ∧ t.core.out = .cpl .ur :: s.core.out)
        ∧ (s.core.powered = true → h.d3 = false → fits →
            exec (.registerRead hostCode pg off size) s = .next { s with core := { s.core with out := .cpl (.data (leBytes 4 (word x) ++ if size = 8 then leBytes 4 (word (x + 4)) else [])) :: s.core.out } }
            ∧ (0x8000 ≤ x → same (.registerWrite hostCode pg off size v))
            ∧ (x < 0x8000 → ∃ t, exec (.registerWrite hostCode pg off size v) s = .next t ∧ t = { s with core := { s.core with host := { h with bar4 := t.core.host.bar4 } } }
                ∧ ∀ y, spRead 0 t.core.host.bar4 y = if y = x then v % 2 ^ 32 else if size = 8 ∧ y = x + 4 then v / 2 ^ 32 % 2 ^ 32 else spRead 0 h.bar4 y))

/-! The machine as a whole -/

/-- A step takes the command at the front of the queue and runs it on the rest; every command answers a next state and leaves the queue alone. On an empty queue a nanosecond passes: machine time advances as steered once it has been started, the records of its TIME go to the host once that is over, counters of what runs by itself count, a compute reset and the rise of the rails end
(R18, R200, R526, R527, R536). That a step on an empty queue is such a nanosecond is the model's choice, log entry 2; what it counts, how it slews and when records go are the choices of log entries 28, 61 and 94. -/
def Obligations.StepTakesFront : Prop :=
  (∀ (s : State) (c : Instr) (rest : List Instr), step { s with pending := c :: rest } = exec c { s with pending := rest })
  ∧ (∀ (s : State) (c : Instr), ∃ t, exec c s = .next t ∧ t.pending = s.pending)
  ∧ ∀ (s : State), s.Wf → s.pending = [] →
    let mt := s.core.mt
    let pw := s.core.pwr
    let d := min mt.slew ((Config.slewRate s.core.time).toNat % 100001)
    let ps : Int := mt.frac + 1000000000 + mt.rate - d
    ∃ t, step s = .next t ∧ t.pending = [] ∧ s.core.Quiet { t.core with time := s.core.time, mt, pwr := pw, crst := s.core.crst, free := s.core.free } ∧ t.core.crst = false
      ∧ t.core.time = (if mt.started then s.core.time + (ps / 1000000000).toNat else s.core.time) ∧ t.core.mt = (if mt.started then { mt with frac := ps % 1000000000, slew := mt.slew - d } else mt)
      ∧ t.core.pwr = { pw with st := if pw.st = .powering then .on else pw.st, loadE := if pw.load then (pw.loadE + pw.added) % 10 ^ 15 else pw.loadE } ∧ t.core.host.evNow = (if mt.started = true ∧ t.core.time = s.core.time then s.core.host.evNow else [])
      ∧ ∀ k, k < 312 → (s.eng k).st = .run → ∃ n, n ≤ 2 ∧ t.core.reg64 (pgSlot k) 0x180 0x184 = min (s.core.reg64 (pgSlot k) 0x180 0x184 + n) (2 ^ 64 - 1)

/-- R519 and the reset columns of the register tables: right after a cold reset every register reads its reset value, memory and stores read 0, every page is disabled, no logical engine is backed, nothing is queued, and machine time has not been started.
That stores read 0 is the model's choice (log entries 6 and 31). -/
def Obligations.ResetValues : Prop :=
  let s := State.reset
  s.pending = [] ∧ s.Wf ∧ s.Sized
  ∧ (∀ pg off b i r, pageBlk pg = some (b, i) → regRow b off = some r → off < 4096 → s.core.reg pg off = r.reset)
  ∧ (∀ pg off b i, pageBlk pg = some (b, i) → regRow b off = none → off < 4096 → s.core.reg pg off = 0)
  ∧ [s.core.reg pgFelt 0x10C, s.core.reg (pgStack 3) 0x104, s.core.reg pgRouter 0x158, s.core.reg pgDsp 0x110, s.core.reg pgEp 0x104, s.core.reg pgEp 0x904, s.core.reg pgLog 0x100, s.core.reg pgCal 0x100, s.core.reg pgCal 0x104, s.core.reg pgPwr 0x110]
    = [0x101020, 0x4001801, 0x800C8, 0x20, 0x989680, 0x3F800000, 0x5, 0x1E0613, 0x78180349, 0x1450]
  ∧ (∀ a, s.byte a = 0) ∧ (∀ pg, s.core.on pg = false) ∧ (∀ n, s.core.slotOf n = none) ∧ s.core.activeEng = 0 ∧ s.core.mt.started = false ∧ s.core.fwdOnly = false ∧ s.core.events = []
  ∧ s.core.pins.pwrGood = false ∧ s.core.pins.faultN = true ∧ s.core.pins.thermTripN = true

/-- R202 to R204, R213 to R218: the word of an engine instruction, written field by field and read back, gives the instruction with every field; a word whose opcode is not listed is none. -/
def Obligations.WordRoundTrip : Prop :=
  (∀ w : EngWord, w.listed = true → EngWord.decode w.encode = some w)
  ∧ (∀ (w : W64) (x : EngWord), EngWord.decode w = some x → x.listed = true ∧ x.encode = w)
  ∧ ∀ w : W64, EngWord.decode w = none ↔ ¬ (w.extractLsb' 56 8 ∈ opsR ++ opsI ++ opsB ++ [0xA0#8, 0xA1#8, 0xA2#8, 0xA3#8, 0xA4#8])

/-- Every step keeps the canonical form of memory and of every sparse map, and the number of engines, slots, ports, stacks and classifications. -/
def Obligations.FormKept : Prop := ∀ (s t : State), s.Wf → s.Sized → step s = .next t → t.Wf ∧ t.Sized
end

