-- ==== Sys2Proof/Laws/Sparse.lean ====
section
/-! SUPPORT. The sparse maps: every operation keeps the canonical form, and what a key reads as after a write, a clear or a copy. -/
namespace Sys2Proof.Machine

variable {α : Type} [DecidableEq α] {d : α}

theorem spWfFrom_le {lo lo' : Nat} {l : List (Nat × α)} (h : spWfFrom d lo l = true) (hl : lo' ≤ lo) : spWfFrom d lo' l = true := by
  cases l with
  | nil => rfl
  | cons e t =>
    simp [spWfFrom] at h ⊢
    exact ⟨⟨by omega, h.1.2⟩, h.2⟩

theorem spRead_below {lo a : Nat} {l : List (Nat × α)} (h : spWfFrom d lo l = true) (ha : a < lo) : spRead d l a = d := by
  cases l with
  | nil => rfl
  | cons e t =>
    simp [spWfFrom] at h
    simp only [spRead]
    rw [if_neg (by omega), if_pos (by omega)]

/-- A write keeps the canonical form. -/
theorem spWrite_wfFrom {lo a : Nat} {l : List (Nat × α)} (v : α) (h : spWfFrom d lo l = true) (ha : lo ≤ a) : spWfFrom d lo (spWrite d l a v) = true := by
  induction l generalizing lo with
  | nil => simp only [spWrite]; split <;> simp_all [spWfFrom]
  | cons e t ih =>
    obtain ⟨k, x⟩ := e
    simp [spWfFrom] at h
    simp only [spWrite]
    split
    · split
      · simp [spWfFrom]; exact h
      · rename_i hk hv
        simp only [spWfFrom, Bool.and_eq_true, decide_eq_true_eq]
        exact ⟨⟨ha, hv⟩, ⟨⟨by omega, h.1.2⟩, h.2⟩⟩
    · split
      · split
        · exact spWfFrom_le h.2 (by omega)
        · rename_i hv
          simp only [spWfFrom, Bool.and_eq_true, decide_eq_true_eq]
          exact ⟨⟨h.1.1, hv⟩, h.2⟩
      · simp only [spWfFrom, Bool.and_eq_true, decide_eq_true_eq]
        exact ⟨⟨h.1.1, h.1.2⟩, ih h.2 (by omega)⟩

theorem spWrite_wf {a : Nat} {l : List (Nat × α)} (v : α) (h : spWf d l = true) : spWf d (spWrite d l a v) = true :=
  spWrite_wfFrom v h (Nat.zero_le a)

/-- What a key reads as after a write. -/
theorem spRead_spWriteFrom {lo a : Nat} {l : List (Nat × α)} (v : α) (b : Nat) (h : spWfFrom d lo l = true) :
    spRead d (spWrite d l a v) b = if b = a then v else spRead d l b := by
  induction l generalizing lo with
  | nil =>
    simp only [spWrite]
    split
    · rename_i hv; simp [spRead, hv]
    · simp only [spRead]; split <;> simp
  | cons e t ih =>
    obtain ⟨k, x⟩ := e
    have h' := h
    simp [spWfFrom] at h
    simp only [spWrite]
    split
    · rename_i hk
      split
      · rename_i hv
        by_cases hb : b = a
        · subst hb; simp only [spRead, if_true]; rw [if_neg (by omega), if_pos hk, hv]
        · rw [if_neg hb]
      · by_cases hb : b = a
        · subst hb; simp [spRead]
        · rw [if_neg hb]
          show spRead d ((a, v) :: (k, x) :: t) b = _
          rw [spRead, if_neg hb]
          split
          · simp only [spRead]; rw [if_neg (by omega), if_pos (by omega)]
          · rfl
    · split
      · rename_i hk hak
        subst hak
        split
        · rename_i hv
          by_cases hb : b = a
          · subst hb; rw [if_pos rfl, spRead_below h.2 (by omega), hv]
          · rw [if_neg hb, spRead, if_neg hb]
            split
            · exact spRead_below h.2 (by omega)
            · rfl
        · by_cases hb : b = a
          · subst hb; simp [spRead]
          · rw [if_neg hb, spRead, if_neg hb, spRead, if_neg hb]
      · rename_i hk hak
        by_cases hb : b = a
        · subst hb
          rw [if_pos rfl, spRead, if_neg hak, if_neg hk, ih h.2, if_pos rfl]
        · rw [if_neg hb, spRead, spRead, ih h.2, if_neg hb]

theorem spRead_spWrite {a : Nat} {l : List (Nat × α)} (v : α) (b : Nat) (h : spWf d l = true) :
    spRead d (spWrite d l a v) b = if b = a then v else spRead d l b := spRead_spWriteFrom v b h

theorem spWriteAll_wf (ws : List (Nat × α)) {l : List (Nat × α)} (h : spWf d l = true) : spWf d (spWriteAll d l ws) = true := by
  induction ws generalizing l with
  | nil => exact h
  | cons w t ih => exact ih (spWrite_wf _ h)

/-- Removing entries keeps the canonical form. -/
theorem spFilter_wfFrom (p : Nat × α → Bool) {lo : Nat} {l : List (Nat × α)} (h : spWfFrom d lo l = true) : spWfFrom d lo (l.filter p) = true := by
  induction l generalizing lo with
  | nil => rfl
  | cons e t ih =>
    obtain ⟨k, x⟩ := e
    simp [spWfFrom] at h
    rw [List.filter_cons]
    split
    · simp only [spWfFrom, Bool.and_eq_true, decide_eq_true_eq]
      exact ⟨⟨h.1.1, h.1.2⟩, ih h.2⟩
    · exact spWfFrom_le (ih h.2) (by omega)

theorem spClear_wf {l : List (Nat × α)} (lo hi : Nat) (h : spWf d l = true) : spWf d (spClear l lo hi) = true := spFilter_wfFrom _ h

theorem spCopy_wf {l : List (Nat × α)} (src dst n : Nat) (h : spWf d l = true) : spWf d (spCopy d l src dst n) = true :=
  spWriteAll_wf _ (spClear_wf _ _ h)

theorem spWf_nil : spWf d [] = true := rfl

/-- A key that a list of writes does not name keeps its value. -/
theorem spRead_spWriteAll_other (ws : List (Nat × α)) {l : List (Nat × α)} (b : Nat) (h : spWf d l = true) (hb : ∀ w ∈ ws, w.1 ≠ b) :
    spRead d (spWriteAll d l ws) b = spRead d l b := by
  induction ws generalizing l with
  | nil => rfl
  | cons w t ih =>
    show spRead d (spWriteAll d (spWrite d l w.1 w.2) t) b = _
    rw [ih (spWrite_wf _ h) (fun x hx => hb x (by simp [hx])), spRead_spWrite _ _ h, if_neg (Ne.symm (hb w (by simp)))]

/-- A key that one write of a list names, and no later one, reads as that write's value. -/
theorem spRead_spWriteAll_at (ws : List (Nat × α)) {l : List (Nat × α)} (b : Nat) (v : α) (h : spWf d l = true)
    (hm : (b, v) ∈ ws) (hu : ∀ w ∈ ws, w.1 = b → w.2 = v) : spRead d (spWriteAll d l ws) b = v := by
  induction ws generalizing l with
  | nil => simp at hm
  | cons w t ih =>
    show spRead d (spWriteAll d (spWrite d l w.1 w.2) t) b = v
    by_cases ht : (b, v) ∈ t
    · exact ih (spWrite_wf _ h) ht (fun x hx => hu x (by simp [hx]))
    · by_cases hn : ∀ x ∈ t, x.1 ≠ b
      · have hw : w = (b, v) := by
          rcases List.mem_cons.1 hm with h1 | h1
          · exact h1.symm
          · exact absurd h1 ht
        rw [spRead_spWriteAll_other t b (spWrite_wf _ h) hn, hw, spRead_spWrite _ _ h, if_pos rfl]
      · exfalso
        apply hn
        intro x hx hxb
        apply ht
        have := hu x (by simp [hx]) hxb
        rw [← hxb, ← this]; exact hx

end Sys2Proof.Machine
end

