-- ==== Sys2Proof/Laws/Memory.lean ====
section
/-! SUPPORT. Memory: every write keeps the canonical form, what each byte reads as after it, and which other parts of the module it leaves alone. -/
namespace Sys2Proof.Machine

theorem Mod.wrPairs_mem (m : Mod) (ws : List (Nat × Nat)) :
    (m.wrPairs ws).mem = spWriteAll 0#8 m.mem (ws.map (fun w => (w.1, BitVec.ofNat 8 w.2))) := by
  simp [Mod.wrPairs, spWriteAll, List.foldl_map]

theorem Mod.wrPairs_memWf (m : Mod) (ws : List (Nat × Nat)) (h : m.memWf = true) : (m.wrPairs ws).memWf = true := by
  unfold Mod.memWf at *; rw [Mod.wrPairs_mem]; exact spWriteAll_wf _ h

theorem Mod.wr_memWf (m : Mod) (a : Nat) (bs : List Nat) (h : m.memWf = true) : (m.wr a bs).memWf = true := by
  unfold Mod.wr; exact Mod.wrPairs_memWf _ _ h

theorem Mod.wrEs_memWf (m : Mod) (k : Nat) (ws : List (Nat × Nat)) (h : m.memWf = true) : (m.wrEs k ws).memWf = true := by
  unfold Mod.wrEs
  apply Mod.wrPairs_memWf
  split <;> exact h

theorem Mod.rd_wrPairs_other (m : Mod) (ws : List (Nat × Nat)) (b : Nat) (h : m.memWf = true) (hb : ∀ w ∈ ws, w.1 ≠ b) :
    (m.wrPairs ws).rd b = m.rd b := by
  unfold Mod.rd; rw [Mod.wrPairs_mem, spRead_spWriteAll_other _ _ h]
  intro w hw
  obtain ⟨x, hx, rfl⟩ := List.mem_map.1 hw
  exact hb x hx

theorem mem_pairsAt {a : Nat} {bs : List Nat} {w : Nat × Nat} : w ∈ pairsAt a bs ↔ ∃ i, bs[i]? = some w.2 ∧ w.1 = a + i := by
  unfold pairsAt
  constructor
  · intro h
    obtain ⟨⟨b, i⟩, hx, rfl⟩ := List.mem_map.1 h
    exact ⟨i, List.mem_zipIdx_iff_getElem?.1 hx, rfl⟩
  · rintro ⟨i, h1, h2⟩
    refine List.mem_map.2 ⟨(w.2, i), List.mem_zipIdx_iff_getElem?.2 h1, ?_⟩
    simp [← h2]

/-- A byte outside the bytes written keeps its value. -/
theorem Mod.rd_wr_other (m : Mod) (a : Nat) (bs : List Nat) (b : Nat) (h : m.memWf = true) (hb : b < a ∨ a + bs.length ≤ b) :
    (m.wr a bs).rd b = m.rd b := by
  refine (Mod.rd_wrPairs_other _ _ _ h ?_).trans rfl
  intro w hw
  have hw := (List.mem_filter.1 hw).1
  obtain ⟨i, h1, h2⟩ := mem_pairsAt.1 hw
  have := (List.getElem?_eq_some_iff.1 h1).1
  omega

/-- A byte written to engine or panel stores reads as written. -/
theorem Mod.rd_wr_at (m : Mod) (a : Nat) (bs : List Nat) (i v : Nat) (h : m.memWf = true) (hi : bs[i]? = some v) (hv : v < 256)
    (ha : 0x28000000000 ≤ a) : (m.wr a bs).rd (a + i) = v := by
  unfold Mod.wr Mod.rd
  dsimp only
  rw [Mod.wrPairs_mem, spRead_spWriteAll_at (v := BitVec.ofNat 8 v)]
  · simp [Nat.mod_eq_of_lt hv]
  · exact h
  · refine List.mem_map.2 ⟨(a + i, v), List.mem_filter.2 ⟨mem_pairsAt.2 ⟨i, hi, rfl⟩, ?_⟩, rfl⟩
    have : ¬ (a + i < 0x28000000000) := by omega
    simp [Mod.inFailed, this]
  · intro w hw hwb
    obtain ⟨x, hx, rfl⟩ := List.mem_map.1 hw
    obtain ⟨j, h1, h2⟩ := mem_pairsAt.1 (List.mem_filter.1 hx).1
    have : j = i := by simp only at hwb; omega
    subst this
    rw [hi] at h1
    simp at h1
    simp [h1]

/-- Writes in order: the last write to an address counts. -/
theorem Mod.rd_wrPairs (m : Mod) (ws : List (Nat × Nat)) (b : Nat) (h : m.memWf = true) :
    (m.wrPairs ws).rd b = ((ws.reverse.find? (fun w => w.1 = b)).map (fun w => w.2 % 256)).getD (m.rd b) := by
  induction ws generalizing m with
  | nil => rfl
  | cons w ws ih =>
    have one : (m.wrPairs [w]).rd b = if w.1 = b then w.2 % 256 else m.rd b := by
      simp only [Mod.rd, Mod.wrPairs, List.foldl_cons, List.foldl_nil]
      rw [spRead_spWrite _ _ h]
      by_cases hb : w.1 = b
      · simp [hb]
      · simp [hb, Ne.symm hb]
    rw [show m.wrPairs (w :: ws) = (m.wrPairs [w]).wrPairs ws from rfl, ih _ (Mod.wrPairs_memWf m [w] h), one, List.reverse_cons, List.find?_append]
    by_cases hb : w.1 = b <;> cases List.find? (fun w => decide (w.1 = b)) ws.reverse <;> simp [hb]

/-- A search by key among pairs whose keys an injection has moved. -/
theorem find?_map_inj (f : Nat → Nat) (hf : ∀ x y, f x = f y → x = y) (ws : List (Nat × Nat)) (a : Nat) :
    (ws.map (fun w => (f w.1, w.2))).find? (fun w => decide (w.1 = f a)) = (ws.find? (fun w => decide (w.1 = a))).map (fun w => (f w.1, w.2)) := by
  rw [List.find?_map]
  exact congrArg (fun p => Option.map _ (List.find? p ws)) (funext fun w => decide_eq_decide.2 ⟨hf _ _, congrArg f⟩)

theorem esAddr_inj {k a b : Nat} : esAddr k a = esAddr k b ↔ a = b := by unfold esAddr; omega

/-- Writes to an engine store: the last write to an offset counts, every other byte of the store is as before. -/
theorem Mod.rd_wrEs (m : Mod) (k : Nat) (ws : List (Nat × Nat)) (a : Nat) (h : m.memWf = true) :
    (m.wrEs k ws).rd (esAddr k a) = ((ws.reverse.find? (fun w => w.1 = a)).map (fun w => w.2 % 256)).getD (m.rd (esAddr k a)) := by
  unfold Mod.wrEs
  rw [Mod.rd_wrPairs]
  · rw [← List.map_reverse, find?_map_inj (esAddr k) (fun _ _ => esAddr_inj.1), Option.map_map]
    generalize esAddr k a = b
    split <;> rfl
  · split <;> exact h

/-- Two batches of writes to a store are one. -/
theorem State.Wrote.append {s t u : State} {k : Nat} {l r : List (Nat × Nat)} (h : s.Wrote t k l) (g : t.Wrote u k r) : s.Wrote u k (l ++ r) := by
  intro a ha
  rw [g a ha, h a ha, List.reverse_append, List.find?_append]
  cases List.find? (fun w => decide (w.1 = a)) r.reverse <;> simp

theorem esAddr_stores (k off : Nat) : 0x28000000000 ≤ esAddr k off := by unfold esAddr; omega

/-! The parts that a write leaves alone -/

@[simp] theorem Mod.wr_engs (m : Mod) (a : Nat) (bs : List Nat) : (m.wr a bs).engs = m.engs := rfl
theorem Mod.wr_eng (m : Mod) (a : Nat) (bs : List Nat) (k : Nat) : (m.wr a bs).eng k = m.eng k := rfl
@[simp] theorem Mod.wr_lmap (m : Mod) (a : Nat) (bs : List Nat) : (m.wr a bs).lmap = m.lmap := rfl
@[simp] theorem Mod.wr_regs (m : Mod) (a : Nat) (bs : List Nat) : (m.wr a bs).regs = m.regs := rfl
@[simp] theorem Mod.wr_events (m : Mod) (a : Nat) (bs : List Nat) : (m.wr a bs).events = m.events := rfl
theorem Mod.setEng_rd (m : Mod) (k : Nat) (e : Engine) (a : Nat) : (m.setEng k e).rd a = m.rd a := rfl
theorem Mod.setEng_memWf (m : Mod) (k : Nat) (e : Engine) : (m.setEng k e).memWf = m.memWf := rfl

end Sys2Proof.Machine
end

