-- ==== Sys2Proof/Laws/Issue.lean ====
section
/-! SUPPORT. What issuing an instruction can do, said once: the fetch of a next instruction succeeds, and an outcome that changes the engine alone gives one state. -/
namespace Sys2Proof.Machine

/-! The engine of a slot -/

theorem Mod.eng_setEng (m : Mod) (k : Nat) (e : Engine) (h : k < m.engs.length) : (m.setEng k e).eng k = e := by
  simp [Mod.eng, Mod.setEng, List.getD_eq_getElem?_getD, h]

theorem Mod.eng_setEng_ne (m : Mod) (j k : Nat) (e : Engine) (h : k ≠ j) : (m.setEng j e).eng k = m.eng k := by
  simp [Mod.eng, Mod.setEng, List.getD_eq_getElem?_getD, Ne.symm h]

theorem Mod.setEng_setEng (m : Mod) (k : Nat) (e e' : Engine) : (m.setEng k e).setEng k e' = m.setEng k e' := by
  simp [Mod.setEng]

theorem Mod.setEng_length (m : Mod) (k : Nat) (e : Engine) : (m.setEng k e).engs.length = m.engs.length := by
  simp [Mod.setEng]

/-! Registers -/

theorem Engine.setS_pc (e : Engine) (r : Nat) (v : W64) : (e.setS r v).pc = e.pc := by
  unfold Engine.setS; split <;> rfl

theorem isS_ok (r : BitVec 6) : RKind.s.ok r = true ↔ isS r := by simp [RKind.ok, isS]

theorem regsOk_sss (f : RFmt) (h : namesDAB f) : regsOk f .s .s .s .any = true := by
  simp_all [regsOk, RKind.ok, namesDAB, isS]

theorem regsOk_ssss (f : RFmt) (h : namesDABC f) : regsOk f .s .s .s .s = true := by
  simp_all [regsOk, RKind.ok, namesDABC, isS]

theorem regsOk_ss (f : RFmt) (h : namesDA f) : regsOk f .s .s .any .any = true := by
  simp_all [regsOk, RKind.ok, namesDA, isS]

theorem immOk_DA (f : IFmt) (h : immDA f) : immOk f = true := by
  simp_all [immOk, immDA, isS, RKind.ok]

/-! Fetch and issue -/

theorem Mod.fetch_next (s : State) (c : Instr) (n k : Nat) (h : s.Next c n k) (w : EngWord) (hw : c.word = some w) :
    s.core.fetch (s.core.iss k n) = .ok w := by
  have h1 := h.inBank
  have h2 := h.good
  have h3 := h.word
  have g1 : ¬ (s.core.iss k n).e.pc > 8191 := by show ¬ (s.core.eng k).pc > 8191; omega
  have g2 : s.core.poison.contains (imKey (s.core.iss k n).k (s.core.iss k n).e.active (s.core.iss k n).e.pc) = false := h2
  have g3 : EngWord.decode (s.core.iss k n).w = some w := h3.trans hw
  unfold Mod.fetch
  rw [if_neg g1, g2, g3]
  rfl

/-- An instruction that is its engine's next one is offered for issue with the engine's view. -/
theorem Mod.issue_next (s : State) (c : Instr) (n k : Nat) (h : s.Next c n k) (w : EngWord) (hw : c.word = some w) (body : Mod → Iss → Res) :
    s.core.issue n w body = s.core.settle k (body s.core (s.core.iss k n)) := by
  have hr := h.running
  simp only [Mod.issue, hr.backs]
  rw [if_neg (by simp [hr.run, hr.free]), Mod.fetch_next s c n k h w hw]
  simp

/-- A next instruction's meaning, as a state: the outcome of its body, settled. -/
theorem run_issue (s : State) (c : Instr) (n k : Nat) (h : s.Next c n k) (w : EngWord) (hw : c.word = some w) (body : Mod → Iss → Res) :
    run (fun m => m.issue n w body) s = .next { s with core := s.core.settle k (body s.core (s.core.iss k n)) } := by
  simp only [run, Mod.issue_next s c n k h w hw]

/-- The next state of an instruction, from the outcome of its body. -/
theorem exec_next (s : State) (n k : Nat) (c : Instr) (w : EngWord) (body : Mod → Iss → Res) (t : State) (h : s.Next c n k)
    (hw : c.word = some w) (he : exec c s = run (fun m => m.issue n w body) s)
    (hb : ({ s with core := s.core.settle k (body s.core (s.core.iss k n)) } : State) = t) : exec c s = .next t := by
  rw [he, run_issue s c n k h _ hw, hb]

/-- A refusal that nothing delays is a kernel fault. -/
theorem settle_fault (s : State) (k : Nat) (f : KFault) (hp : s.core.ptPending k = false) :
    ({ s with core := s.core.settle k (.fault s.core f) } : State) = s.faulted k f := by
  simp only [Mod.settle, hp]; rfl

theorem settle_illegal (s : State) (k n : Nat) (hp : s.core.ptPending k = false) :
    ({ s with core := s.core.settle k (.fault s.core (s.core.iss k n).illegal) } : State) = s.faulted k (s.illegal k) :=
  settle_fault s k _ hp

theorem settle_same (s : State) (k : Nat) : ({ s with core := s.core.settle k (.next s.core) } : State) = s.passed k := rfl

/-- The engine's view gives its slot and the engine itself. -/
theorem Mod.iss_k (m : Mod) (k n : Nat) : (m.iss k n).k = k := rfl
theorem Mod.iss_n (m : Mod) (k n : Nat) : (m.iss k n).n = n := rfl
theorem Mod.iss_e (m : Mod) (k n : Nat) : (m.iss k n).e = m.eng k := rfl

/-- An outcome that changes the engine alone and goes on. -/
theorem settle_next_upd (m : Mod) (k n : Nat) (h : k < m.engs.length) (g : Engine → Engine) :
    m.settle k (.next (m.upd (m.iss k n) g)) = m.setEng k ((g (m.eng k)).fallFrom (m.eng k).pc) := by
  simp only [Mod.settle, Mod.fallFrom, Mod.upd, Mod.iss_k]
  rw [Mod.eng_setEng _ _ _ h, Mod.setEng_setEng]

theorem settle_fall_upd (m : Mod) (k n : Nat) (h : k < m.engs.length) (g : Engine → Engine) (i : Nat) :
    m.settle k (.fall (m.upd (m.iss k n) g) i) = m.setEng k ((g (m.eng k)).fallFrom i) := by
  simp only [Mod.settle, Mod.fallFrom, Mod.upd, Mod.iss_k]
  rw [Mod.eng_setEng _ _ _ h, Mod.setEng_setEng]

/-- An outcome that changes nothing but the pc and the loops. -/
theorem settle_next_same (m : Mod) (k : Nat) : m.settle k (.next m) = m.setEng k ((m.eng k).advance) := rfl

/-- A scalar result: the register, the pc and the loops. -/
theorem settle_putS (s : State) (k n : Nat) (h : k < s.core.engs.length) (d : BitVec 6) (v : W64) :
    ({ s with core := s.core.settle k (.next (s.core.putS (s.core.iss k n) d v)) } : State) = s.wroteS k d v := by
  simp only [Mod.putS, settle_next_upd _ _ _ h, State.wroteS, State.withEng, State.eng, Engine.advance, Engine.setS_pc]

/-! Accesses to the engine store -/

theorem span_ok (x : Iss) (off n align : Nat) (h : off + n ≤ 2 ^ 22) (ha : off % align = 0) : x.span off n align = none := by
  unfold Iss.span
  rw [if_neg (by omega), if_neg (by simp [ha])]

/-- One access that may be made is made. -/
theorem using_one (s : State) (k n off len align : Nat) (wr : Bool) (h : s.Usable k n off len align wr) (body : Res) :
    s.core.using (s.core.iss k n) [{ off, n := len, align, wr }] body = body := by
  unfold Mod.using
  simp only [Iss.spans, List.map_cons, List.map_nil, List.findSome?_cons, List.findSome?_nil, span_ok _ _ _ _ h.range h.aligned]
  simp only [List.any_cons, List.any_nil, h.ready, Bool.and_false, Bool.or_false]
  rw [if_neg (by simp)]
  rcases h.good with hw | hp
  · subst hw; simp [Mod.badRead]
  · cases wr with
    | true => simp [Mod.badRead]
    | false => simp [Mod.badRead, Mod.iss_k, hp]

/-- An access that the store refuses ends the instruction. -/
theorem using_bad (m : Mod) (x : Iss) (off len align : Nat) (wr : Bool) (body : Res) (f : KFault) (h : x.span off len align = some f) :
    m.using x [{ off, n := len, align, wr }] body = .fault m f := by
  unfold Mod.using
  simp only [Iss.spans, List.map_cons, List.map_nil, List.findSome?_cons, h]

/-- A store that is the whole effect of an instruction. -/
theorem stored_putEs (s : State) (k n off : Nat) (bs : List Nat) (h : k < s.core.engs.length) (hm : s.memWf) (hb : ∀ v ∈ bs, v < 256) :
    s.Stored { s with core := s.core.settle k (.next (s.core.putEs (s.core.iss k n) off bs)) } k (esAddr k off) bs (s.eng k).advance := by
  refine ⟨?_, ?_, ?_, ?_, ?_⟩
  · exact Mod.eng_setEng _ _ _ h
  · intro j hj
    exact Mod.eng_setEng_ne _ _ _ _ hj
  · intro i v hv
    exact Mod.rd_wr_at s.core _ _ i v hm hv (hb v (List.mem_of_getElem? hv)) (esAddr_stores k off)
  · intro b hbb
    exact Mod.rd_wr_other s.core _ _ b hm hbb
  · rfl

end Sys2Proof.Machine
end

