-- ==== Sys2Proof/Laws/State.lean ====
section
/-! SUPPORT. One lemma for each field of the module and each plain update: the field after the update. What reporting (events, MSI-X, counters, page errors) leaves alone is said once, by `Mod.Quiet`, and then field by field. -/
namespace Sys2Proof.Machine

/-! Plain updates, field by field -/

@[simp] theorem Mod.setEng_time (m : Mod) (k : Nat) (e : Engine) : (m.setEng k e).time = m.time := rfl
@[simp] theorem Mod.setEng_fuse (m : Mod) (k : Nat) (e : Engine) : (m.setEng k e).fuse = m.fuse := rfl
@[simp] theorem Mod.setEng_modid (m : Mod) (k : Nat) (e : Engine) : (m.setEng k e).modid = m.modid := rfl
@[simp] theorem Mod.setEng_crst (m : Mod) (k : Nat) (e : Engine) : (m.setEng k e).crst = m.crst := rfl
@[simp] theorem Mod.setEng_antiRollback (m : Mod) (k : Nat) (e : Engine) : (m.setEng k e).antiRollback = m.antiRollback := rfl
@[simp] theorem Mod.setEng_fwdOnly (m : Mod) (k : Nat) (e : Engine) : (m.setEng k e).fwdOnly = m.fwdOnly := rfl
@[simp] theorem Mod.setEng_nStacks (m : Mod) (k : Nat) (e : Engine) : (m.setEng k e).nStacks = m.nStacks := rfl
@[simp] theorem Mod.setEng_lmap (m : Mod) (k : Nat) (e : Engine) : (m.setEng k e).lmap = m.lmap := rfl
@[simp] theorem Mod.setEng_ptGroups (m : Mod) (k : Nat) (e : Engine) : (m.setEng k e).ptGroups = m.ptGroups := rfl
@[simp] theorem Mod.setEng_dsp (m : Mod) (k : Nat) (e : Engine) : (m.setEng k e).dsp = m.dsp := rfl
@[simp] theorem Mod.setEng_ep (m : Mod) (k : Nat) (e : Engine) : (m.setEng k e).ep = m.ep := rfl
@[simp] theorem Mod.setEng_js (m : Mod) (k : Nat) (e : Engine) : (m.setEng k e).js = m.js := rfl
@[simp] theorem Mod.setEng_ts (m : Mod) (k : Nat) (e : Engine) : (m.setEng k e).ts = m.ts := rfl
@[simp] theorem Mod.setEng_clip (m : Mod) (k : Nat) (e : Engine) : (m.setEng k e).clip = m.clip := rfl
@[simp] theorem Mod.setEng_kat (m : Mod) (k : Nat) (e : Engine) : (m.setEng k e).kat = m.kat := rfl
@[simp] theorem Mod.setEng_lg (m : Mod) (k : Nat) (e : Engine) : (m.setEng k e).lg = m.lg := rfl
@[simp] theorem Mod.setEng_sd (m : Mod) (k : Nat) (e : Engine) : (m.setEng k e).sd = m.sd := rfl
@[simp] theorem Mod.setEng_ce (m : Mod) (k : Nat) (e : Engine) : (m.setEng k e).ce = m.ce := rfl
@[simp] theorem Mod.setEng_rt (m : Mod) (k : Nat) (e : Engine) : (m.setEng k e).rt = m.rt := rfl
@[simp] theorem Mod.setEng_ports (m : Mod) (k : Nat) (e : Engine) : (m.setEng k e).ports = m.ports := rfl
@[simp] theorem Mod.setEng_dep (m : Mod) (k : Nat) (e : Engine) : (m.setEng k e).dep = m.dep := rfl
@[simp] theorem Mod.setEng_stks (m : Mod) (k : Nat) (e : Engine) : (m.setEng k e).stks = m.stks := rfl
@[simp] theorem Mod.setEng_felt (m : Mod) (k : Nat) (e : Engine) : (m.setEng k e).felt = m.felt := rfl
@[simp] theorem Mod.setEng_mt (m : Mod) (k : Nat) (e : Engine) : (m.setEng k e).mt = m.mt := rfl
@[simp] theorem Mod.setEng_pwr (m : Mod) (k : Nat) (e : Engine) : (m.setEng k e).pwr = m.pwr := rfl
@[simp] theorem Mod.setEng_pins (m : Mod) (k : Nat) (e : Engine) : (m.setEng k e).pins = m.pins := rfl
@[simp] theorem Mod.setEng_host (m : Mod) (k : Nat) (e : Engine) : (m.setEng k e).host = m.host := rfl
@[simp] theorem Mod.setEng_pages (m : Mod) (k : Nat) (e : Engine) : (m.setEng k e).pages = m.pages := rfl
@[simp] theorem Mod.setEng_regs (m : Mod) (k : Nat) (e : Engine) : (m.setEng k e).regs = m.regs := rfl
@[simp] theorem Mod.setEng_mem (m : Mod) (k : Nat) (e : Engine) : (m.setEng k e).mem = m.mem := rfl
@[simp] theorem Mod.setEng_poison (m : Mod) (k : Nat) (e : Engine) : (m.setEng k e).poison = m.poison := rfl
@[simp] theorem Mod.setEng_once (m : Mod) (k : Nat) (e : Engine) : (m.setEng k e).once = m.once := rfl
@[simp] theorem Mod.setEng_events (m : Mod) (k : Nat) (e : Engine) : (m.setEng k e).events = m.events := rfl
@[simp] theorem Mod.setEng_out (m : Mod) (k : Nat) (e : Engine) : (m.setEng k e).out = m.out := rfl
@[simp] theorem Mod.setEng_free (m : Mod) (k : Nat) (e : Engine) : (m.setEng k e).free = m.free := rfl

@[simp] theorem Mod.setSlot_time (m : Mod) (k : Nat) (x : SlotDep) : (m.setSlot k x).time = m.time := rfl
@[simp] theorem Mod.setSlot_fuse (m : Mod) (k : Nat) (x : SlotDep) : (m.setSlot k x).fuse = m.fuse := rfl
@[simp] theorem Mod.setSlot_modid (m : Mod) (k : Nat) (x : SlotDep) : (m.setSlot k x).modid = m.modid := rfl
@[simp] theorem Mod.setSlot_crst (m : Mod) (k : Nat) (x : SlotDep) : (m.setSlot k x).crst = m.crst := rfl
@[simp] theorem Mod.setSlot_antiRollback (m : Mod) (k : Nat) (x : SlotDep) : (m.setSlot k x).antiRollback = m.antiRollback := rfl
@[simp] theorem Mod.setSlot_fwdOnly (m : Mod) (k : Nat) (x : SlotDep) : (m.setSlot k x).fwdOnly = m.fwdOnly := rfl
@[simp] theorem Mod.setSlot_nStacks (m : Mod) (k : Nat) (x : SlotDep) : (m.setSlot k x).nStacks = m.nStacks := rfl
@[simp] theorem Mod.setSlot_lmap (m : Mod) (k : Nat) (x : SlotDep) : (m.setSlot k x).lmap = m.lmap := rfl
@[simp] theorem Mod.setSlot_engs (m : Mod) (k : Nat) (x : SlotDep) : (m.setSlot k x).engs = m.engs := rfl
@[simp] theorem Mod.setSlot_ptGroups (m : Mod) (k : Nat) (x : SlotDep) : (m.setSlot k x).ptGroups = m.ptGroups := rfl
@[simp] theorem Mod.setSlot_dsp (m : Mod) (k : Nat) (x : SlotDep) : (m.setSlot k x).dsp = m.dsp := rfl
@[simp] theorem Mod.setSlot_ep (m : Mod) (k : Nat) (x : SlotDep) : (m.setSlot k x).ep = m.ep := rfl
@[simp] theorem Mod.setSlot_js (m : Mod) (k : Nat) (x : SlotDep) : (m.setSlot k x).js = m.js := rfl
@[simp] theorem Mod.setSlot_ts (m : Mod) (k : Nat) (x : SlotDep) : (m.setSlot k x).ts = m.ts := rfl
@[simp] theorem Mod.setSlot_clip (m : Mod) (k : Nat) (x : SlotDep) : (m.setSlot k x).clip = m.clip := rfl
@[simp] theorem Mod.setSlot_kat (m : Mod) (k : Nat) (x : SlotDep) : (m.setSlot k x).kat = m.kat := rfl
@[simp] theorem Mod.setSlot_lg (m : Mod) (k : Nat) (x : SlotDep) : (m.setSlot k x).lg = m.lg := rfl
@[simp] theorem Mod.setSlot_sd (m : Mod) (k : Nat) (x : SlotDep) : (m.setSlot k x).sd = m.sd := rfl
@[simp] theorem Mod.setSlot_ce (m : Mod) (k : Nat) (x : SlotDep) : (m.setSlot k x).ce = m.ce := rfl
@[simp] theorem Mod.setSlot_rt (m : Mod) (k : Nat) (x : SlotDep) : (m.setSlot k x).rt = m.rt := rfl
@[simp] theorem Mod.setSlot_ports (m : Mod) (k : Nat) (x : SlotDep) : (m.setSlot k x).ports = m.ports := rfl
@[simp] theorem Mod.setSlot_stks (m : Mod) (k : Nat) (x : SlotDep) : (m.setSlot k x).stks = m.stks := rfl
@[simp] theorem Mod.setSlot_felt (m : Mod) (k : Nat) (x : SlotDep) : (m.setSlot k x).felt = m.felt := rfl
@[simp] theorem Mod.setSlot_mt (m : Mod) (k : Nat) (x : SlotDep) : (m.setSlot k x).mt = m.mt := rfl
@[simp] theorem Mod.setSlot_pwr (m : Mod) (k : Nat) (x : SlotDep) : (m.setSlot k x).pwr = m.pwr := rfl
@[simp] theorem Mod.setSlot_pins (m : Mod) (k : Nat) (x : SlotDep) : (m.setSlot k x).pins = m.pins := rfl
@[simp] theorem Mod.setSlot_host (m : Mod) (k : Nat) (x : SlotDep) : (m.setSlot k x).host = m.host := rfl
@[simp] theorem Mod.setSlot_pages (m : Mod) (k : Nat) (x : SlotDep) : (m.setSlot k x).pages = m.pages := rfl
@[simp] theorem Mod.setSlot_regs (m : Mod) (k : Nat) (x : SlotDep) : (m.setSlot k x).regs = m.regs := rfl
@[simp] theorem Mod.setSlot_mem (m : Mod) (k : Nat) (x : SlotDep) : (m.setSlot k x).mem = m.mem := rfl
@[simp] theorem Mod.setSlot_poison (m : Mod) (k : Nat) (x : SlotDep) : (m.setSlot k x).poison = m.poison := rfl
@[simp] theorem Mod.setSlot_once (m : Mod) (k : Nat) (x : SlotDep) : (m.setSlot k x).once = m.once := rfl
@[simp] theorem Mod.setSlot_events (m : Mod) (k : Nat) (x : SlotDep) : (m.setSlot k x).events = m.events := rfl
@[simp] theorem Mod.setSlot_out (m : Mod) (k : Nat) (x : SlotDep) : (m.setSlot k x).out = m.out := rfl
@[simp] theorem Mod.setSlot_free (m : Mod) (k : Nat) (x : SlotDep) : (m.setSlot k x).free = m.free := rfl

@[simp] theorem Mod.setPort_time (m : Mod) (i : Nat) (p : Port) : (m.setPort i p).time = m.time := rfl
@[simp] theorem Mod.setPort_fuse (m : Mod) (i : Nat) (p : Port) : (m.setPort i p).fuse = m.fuse := rfl
@[simp] theorem Mod.setPort_modid (m : Mod) (i : Nat) (p : Port) : (m.setPort i p).modid = m.modid := rfl
@[simp] theorem Mod.setPort_crst (m : Mod) (i : Nat) (p : Port) : (m.setPort i p).crst = m.crst := rfl
@[simp] theorem Mod.setPort_antiRollback (m : Mod) (i : Nat) (p : Port) : (m.setPort i p).antiRollback = m.antiRollback := rfl
@[simp] theorem Mod.setPort_fwdOnly (m : Mod) (i : Nat) (p : Port) : (m.setPort i p).fwdOnly = m.fwdOnly := rfl
@[simp] theorem Mod.setPort_nStacks (m : Mod) (i : Nat) (p : Port) : (m.setPort i p).nStacks = m.nStacks := rfl
@[simp] theorem Mod.setPort_lmap (m : Mod) (i : Nat) (p : Port) : (m.setPort i p).lmap = m.lmap := rfl
@[simp] theorem Mod.setPort_engs (m : Mod) (i : Nat) (p : Port) : (m.setPort i p).engs = m.engs := rfl
@[simp] theorem Mod.setPort_ptGroups (m : Mod) (i : Nat) (p : Port) : (m.setPort i p).ptGroups = m.ptGroups := rfl
@[simp] theorem Mod.setPort_dsp (m : Mod) (i : Nat) (p : Port) : (m.setPort i p).dsp = m.dsp := rfl
@[simp] theorem Mod.setPort_ep (m : Mod) (i : Nat) (p : Port) : (m.setPort i p).ep = m.ep := rfl
@[simp] theorem Mod.setPort_js (m : Mod) (i : Nat) (p : Port) : (m.setPort i p).js = m.js := rfl
@[simp] theorem Mod.setPort_ts (m : Mod) (i : Nat) (p : Port) : (m.setPort i p).ts = m.ts := rfl
@[simp] theorem Mod.setPort_clip (m : Mod) (i : Nat) (p : Port) : (m.setPort i p).clip = m.clip := rfl
@[simp] theorem Mod.setPort_kat (m : Mod) (i : Nat) (p : Port) : (m.setPort i p).kat = m.kat := rfl
@[simp] theorem Mod.setPort_lg (m : Mod) (i : Nat) (p : Port) : (m.setPort i p).lg = m.lg := rfl
@[simp] theorem Mod.setPort_sd (m : Mod) (i : Nat) (p : Port) : (m.setPort i p).sd = m.sd := rfl
@[simp] theorem Mod.setPort_ce (m : Mod) (i : Nat) (p : Port) : (m.setPort i p).ce = m.ce := rfl
@[simp] theorem Mod.setPort_rt (m : Mod) (i : Nat) (p : Port) : (m.setPort i p).rt = m.rt := rfl
@[simp] theorem Mod.setPort_dep (m : Mod) (i : Nat) (p : Port) : (m.setPort i p).dep = m.dep := rfl
@[simp] theorem Mod.setPort_stks (m : Mod) (i : Nat) (p : Port) : (m.setPort i p).stks = m.stks := rfl
@[simp] theorem Mod.setPort_felt (m : Mod) (i : Nat) (p : Port) : (m.setPort i p).felt = m.felt := rfl
@[simp] theorem Mod.setPort_mt (m : Mod) (i : Nat) (p : Port) : (m.setPort i p).mt = m.mt := rfl
@[simp] theorem Mod.setPort_pwr (m : Mod) (i : Nat) (p : Port) : (m.setPort i p).pwr = m.pwr := rfl
@[simp] theorem Mod.setPort_pins (m : Mod) (i : Nat) (p : Port) : (m.setPort i p).pins = m.pins := rfl
@[simp] theorem Mod.setPort_host (m : Mod) (i : Nat) (p : Port) : (m.setPort i p).host = m.host := rfl
@[simp] theorem Mod.setPort_pages (m : Mod) (i : Nat) (p : Port) : (m.setPort i p).pages = m.pages := rfl
@[simp] theorem Mod.setPort_regs (m : Mod) (i : Nat) (p : Port) : (m.setPort i p).regs = m.regs := rfl
@[simp] theorem Mod.setPort_mem (m : Mod) (i : Nat) (p : Port) : (m.setPort i p).mem = m.mem := rfl
@[simp] theorem Mod.setPort_poison (m : Mod) (i : Nat) (p : Port) : (m.setPort i p).poison = m.poison := rfl
@[simp] theorem Mod.setPort_once (m : Mod) (i : Nat) (p : Port) : (m.setPort i p).once = m.once := rfl
@[simp] theorem Mod.setPort_events (m : Mod) (i : Nat) (p : Port) : (m.setPort i p).events = m.events := rfl
@[simp] theorem Mod.setPort_out (m : Mod) (i : Nat) (p : Port) : (m.setPort i p).out = m.out := rfl
@[simp] theorem Mod.setPort_free (m : Mod) (i : Nat) (p : Port) : (m.setPort i p).free = m.free := rfl

@[simp] theorem Mod.setStk_time (m : Mod) (i : Nat) (x : Stack) : (m.setStk i x).time = m.time := rfl
@[simp] theorem Mod.setStk_fuse (m : Mod) (i : Nat) (x : Stack) : (m.setStk i x).fuse = m.fuse := rfl
@[simp] theorem Mod.setStk_modid (m : Mod) (i : Nat) (x : Stack) : (m.setStk i x).modid = m.modid := rfl
@[simp] theorem Mod.setStk_crst (m : Mod) (i : Nat) (x : Stack) : (m.setStk i x).crst = m.crst := rfl
@[simp] theorem Mod.setStk_antiRollback (m : Mod) (i : Nat) (x : Stack) : (m.setStk i x).antiRollback = m.antiRollback := rfl
@[simp] theorem Mod.setStk_fwdOnly (m : Mod) (i : Nat) (x : Stack) : (m.setStk i x).fwdOnly = m.fwdOnly := rfl
@[simp] theorem Mod.setStk_nStacks (m : Mod) (i : Nat) (x : Stack) : (m.setStk i x).nStacks = m.nStacks := rfl
@[simp] theorem Mod.setStk_lmap (m : Mod) (i : Nat) (x : Stack) : (m.setStk i x).lmap = m.lmap := rfl
@[simp] theorem Mod.setStk_engs (m : Mod) (i : Nat) (x : Stack) : (m.setStk i x).engs = m.engs := rfl
@[simp] theorem Mod.setStk_ptGroups (m : Mod) (i : Nat) (x : Stack) : (m.setStk i x).ptGroups = m.ptGroups := rfl
@[simp] theorem Mod.setStk_dsp (m : Mod) (i : Nat) (x : Stack) : (m.setStk i x).dsp = m.dsp := rfl
@[simp] theorem Mod.setStk_ep (m : Mod) (i : Nat) (x : Stack) : (m.setStk i x).ep = m.ep := rfl
@[simp] theorem Mod.setStk_js (m : Mod) (i : Nat) (x : Stack) : (m.setStk i x).js = m.js := rfl
@[simp] theorem Mod.setStk_ts (m : Mod) (i : Nat) (x : Stack) : (m.setStk i x).ts = m.ts := rfl
@[simp] theorem Mod.setStk_clip (m : Mod) (i : Nat) (x : Stack) : (m.setStk i x).clip = m.clip := rfl
@[simp] theorem Mod.setStk_kat (m : Mod) (i : Nat) (x : Stack) : (m.setStk i x).kat = m.kat := rfl
@[simp] theorem Mod.setStk_lg (m : Mod) (i : Nat) (x : Stack) : (m.setStk i x).lg = m.lg := rfl
@[simp] theorem Mod.setStk_sd (m : Mod) (i : Nat) (x : Stack) : (m.setStk i x).sd = m.sd := rfl
@[simp] theorem Mod.setStk_ce (m : Mod) (i : Nat) (x : Stack) : (m.setStk i x).ce = m.ce := rfl
@[simp] theorem Mod.setStk_rt (m : Mod) (i : Nat) (x : Stack) : (m.setStk i x).rt = m.rt := rfl
@[simp] theorem Mod.setStk_ports (m : Mod) (i : Nat) (x : Stack) : (m.setStk i x).ports = m.ports := rfl
@[simp] theorem Mod.setStk_dep (m : Mod) (i : Nat) (x : Stack) : (m.setStk i x).dep = m.dep := rfl
@[simp] theorem Mod.setStk_felt (m : Mod) (i : Nat) (x : Stack) : (m.setStk i x).felt = m.felt := rfl
@[simp] theorem Mod.setStk_mt (m : Mod) (i : Nat) (x : Stack) : (m.setStk i x).mt = m.mt := rfl
@[simp] theorem Mod.setStk_pwr (m : Mod) (i : Nat) (x : Stack) : (m.setStk i x).pwr = m.pwr := rfl
@[simp] theorem Mod.setStk_pins (m : Mod) (i : Nat) (x : Stack) : (m.setStk i x).pins = m.pins := rfl
@[simp] theorem Mod.setStk_host (m : Mod) (i : Nat) (x : Stack) : (m.setStk i x).host = m.host := rfl
@[simp] theorem Mod.setStk_pages (m : Mod) (i : Nat) (x : Stack) : (m.setStk i x).pages = m.pages := rfl
@[simp] theorem Mod.setStk_regs (m : Mod) (i : Nat) (x : Stack) : (m.setStk i x).regs = m.regs := rfl
@[simp] theorem Mod.setStk_mem (m : Mod) (i : Nat) (x : Stack) : (m.setStk i x).mem = m.mem := rfl
@[simp] theorem Mod.setStk_poison (m : Mod) (i : Nat) (x : Stack) : (m.setStk i x).poison = m.poison := rfl
@[simp] theorem Mod.setStk_once (m : Mod) (i : Nat) (x : Stack) : (m.setStk i x).once = m.once := rfl
@[simp] theorem Mod.setStk_events (m : Mod) (i : Nat) (x : Stack) : (m.setStk i x).events = m.events := rfl
@[simp] theorem Mod.setStk_out (m : Mod) (i : Nat) (x : Stack) : (m.setStk i x).out = m.out := rfl
@[simp] theorem Mod.setStk_free (m : Mod) (i : Nat) (x : Stack) : (m.setStk i x).free = m.free := rfl

@[simp] theorem Mod.setReg_time (m : Mod) (pg off v : Nat) : (m.setReg pg off v).time = m.time := rfl
@[simp] theorem Mod.setReg_fuse (m : Mod) (pg off v : Nat) : (m.setReg pg off v).fuse = m.fuse := rfl
@[simp] theorem Mod.setReg_modid (m : Mod) (pg off v : Nat) : (m.setReg pg off v).modid = m.modid := rfl
@[simp] theorem Mod.setReg_crst (m : Mod) (pg off v : Nat) : (m.setReg pg off v).crst = m.crst := rfl
@[simp] theorem Mod.setReg_antiRollback (m : Mod) (pg off v : Nat) : (m.setReg pg off v).antiRollback = m.antiRollback := rfl
@[simp] theorem Mod.setReg_fwdOnly (m : Mod) (pg off v : Nat) : (m.setReg pg off v).fwdOnly = m.fwdOnly := rfl
@[simp] theorem Mod.setReg_nStacks (m : Mod) (pg off v : Nat) : (m.setReg pg off v).nStacks = m.nStacks := rfl
@[simp] theorem Mod.setReg_lmap (m : Mod) (pg off v : Nat) : (m.setReg pg off v).lmap = m.lmap := rfl
@[simp] theorem Mod.setReg_engs (m : Mod) (pg off v : Nat) : (m.setReg pg off v).engs = m.engs := rfl
@[simp] theorem Mod.setReg_ptGroups (m : Mod) (pg off v : Nat) : (m.setReg pg off v).ptGroups = m.ptGroups := rfl
@[simp] theorem Mod.setReg_dsp (m : Mod) (pg off v : Nat) : (m.setReg pg off v).dsp = m.dsp := rfl
@[simp] theorem Mod.setReg_ep (m : Mod) (pg off v : Nat) : (m.setReg pg off v).ep = m.ep := rfl
@[simp] theorem Mod.setReg_js (m : Mod) (pg off v : Nat) : (m.setReg pg off v).js = m.js := rfl
@[simp] theorem Mod.setReg_ts (m : Mod) (pg off v : Nat) : (m.setReg pg off v).ts = m.ts := rfl
@[simp] theorem Mod.setReg_clip (m : Mod) (pg off v : Nat) : (m.setReg pg off v).clip = m.clip := rfl
@[simp] theorem Mod.setReg_kat (m : Mod) (pg off v : Nat) : (m.setReg pg off v).kat = m.kat := rfl
@[simp] theorem Mod.setReg_lg (m : Mod) (pg off v : Nat) : (m.setReg pg off v).lg = m.lg := rfl
@[simp] theorem Mod.setReg_sd (m : Mod) (pg off v : Nat) : (m.setReg pg off v).sd = m.sd := rfl
@[simp] theorem Mod.setReg_ce (m : Mod) (pg off v : Nat) : (m.setReg pg off v).ce = m.ce := rfl
@[simp] theorem Mod.setReg_rt (m : Mod) (pg off v : Nat) : (m.setReg pg off v).rt = m.rt := rfl
@[simp] theorem Mod.setReg_ports (m : Mod) (pg off v : Nat) : (m.setReg pg off v).ports = m.ports := rfl
@[simp] theorem Mod.setReg_dep (m : Mod) (pg off v : Nat) : (m.setReg pg off v).dep = m.dep := rfl
@[simp] theorem Mod.setReg_stks (m : Mod) (pg off v : Nat) : (m.setReg pg off v).stks = m.stks := rfl
@[simp] theorem Mod.setReg_felt (m : Mod) (pg off v : Nat) : (m.setReg pg off v).felt = m.felt := rfl
@[simp] theorem Mod.setReg_mt (m : Mod) (pg off v : Nat) : (m.setReg pg off v).mt = m.mt := rfl
@[simp] theorem Mod.setReg_pwr (m : Mod) (pg off v : Nat) : (m.setReg pg off v).pwr = m.pwr := rfl
@[simp] theorem Mod.setReg_pins (m : Mod) (pg off v : Nat) : (m.setReg pg off v).pins = m.pins := rfl
@[simp] theorem Mod.setReg_host (m : Mod) (pg off v : Nat) : (m.setReg pg off v).host = m.host := rfl
@[simp] theorem Mod.setReg_pages (m : Mod) (pg off v : Nat) : (m.setReg pg off v).pages = m.pages := rfl
@[simp] theorem Mod.setReg_mem (m : Mod) (pg off v : Nat) : (m.setReg pg off v).mem = m.mem := rfl
@[simp] theorem Mod.setReg_poison (m : Mod) (pg off v : Nat) : (m.setReg pg off v).poison = m.poison := rfl
@[simp] theorem Mod.setReg_once (m : Mod) (pg off v : Nat) : (m.setReg pg off v).once = m.once := rfl
@[simp] theorem Mod.setReg_events (m : Mod) (pg off v : Nat) : (m.setReg pg off v).events = m.events := rfl
@[simp] theorem Mod.setReg_out (m : Mod) (pg off v : Nat) : (m.setReg pg off v).out = m.out := rfl
@[simp] theorem Mod.setReg_free (m : Mod) (pg off v : Nat) : (m.setReg pg off v).free = m.free := rfl

@[simp] theorem Mod.setPage_time (m : Mod) (pg : Nat) (p : Page) : (m.setPage pg p).time = m.time := rfl
@[simp] theorem Mod.setPage_fuse (m : Mod) (pg : Nat) (p : Page) : (m.setPage pg p).fuse = m.fuse := rfl
@[simp] theorem Mod.setPage_modid (m : Mod) (pg : Nat) (p : Page) : (m.setPage pg p).modid = m.modid := rfl
@[simp] theorem Mod.setPage_crst (m : Mod) (pg : Nat) (p : Page) : (m.setPage pg p).crst = m.crst := rfl
@[simp] theorem Mod.setPage_antiRollback (m : Mod) (pg : Nat) (p : Page) : (m.setPage pg p).antiRollback = m.antiRollback := rfl
@[simp] theorem Mod.setPage_fwdOnly (m : Mod) (pg : Nat) (p : Page) : (m.setPage pg p).fwdOnly = m.fwdOnly := rfl
@[simp] theorem Mod.setPage_nStacks (m : Mod) (pg : Nat) (p : Page) : (m.setPage pg p).nStacks = m.nStacks := rfl
@[simp] theorem Mod.setPage_lmap (m : Mod) (pg : Nat) (p : Page) : (m.setPage pg p).lmap = m.lmap := rfl
@[simp] theorem Mod.setPage_engs (m : Mod) (pg : Nat) (p : Page) : (m.setPage pg p).engs = m.engs := rfl
@[simp] theorem Mod.setPage_ptGroups (m : Mod) (pg : Nat) (p : Page) : (m.setPage pg p).ptGroups = m.ptGroups := rfl
@[simp] theorem Mod.setPage_dsp (m : Mod) (pg : Nat) (p : Page) : (m.setPage pg p).dsp = m.dsp := rfl
@[simp] theorem Mod.setPage_ep (m : Mod) (pg : Nat) (p : Page) : (m.setPage pg p).ep = m.ep := rfl
@[simp] theorem Mod.setPage_js (m : Mod) (pg : Nat) (p : Page) : (m.setPage pg p).js = m.js := rfl
@[simp] theorem Mod.setPage_ts (m : Mod) (pg : Nat) (p : Page) : (m.setPage pg p).ts = m.ts := rfl
@[simp] theorem Mod.setPage_clip (m : Mod) (pg : Nat) (p : Page) : (m.setPage pg p).clip = m.clip := rfl
@[simp] theorem Mod.setPage_kat (m : Mod) (pg : Nat) (p : Page) : (m.setPage pg p).kat = m.kat := rfl
@[simp] theorem Mod.setPage_lg (m : Mod) (pg : Nat) (p : Page) : (m.setPage pg p).lg = m.lg := rfl
@[simp] theorem Mod.setPage_sd (m : Mod) (pg : Nat) (p : Page) : (m.setPage pg p).sd = m.sd := rfl
@[simp] theorem Mod.setPage_ce (m : Mod) (pg : Nat) (p : Page) : (m.setPage pg p).ce = m.ce := rfl
@[simp] theorem Mod.setPage_rt (m : Mod) (pg : Nat) (p : Page) : (m.setPage pg p).rt = m.rt := rfl
@[simp] theorem Mod.setPage_ports (m : Mod) (pg : Nat) (p : Page) : (m.setPage pg p).ports = m.ports := rfl
@[simp] theorem Mod.setPage_dep (m : Mod) (pg : Nat) (p : Page) : (m.setPage pg p).dep = m.dep := rfl
@[simp] theorem Mod.setPage_stks (m : Mod) (pg : Nat) (p : Page) : (m.setPage pg p).stks = m.stks := rfl
@[simp] theorem Mod.setPage_felt (m : Mod) (pg : Nat) (p : Page) : (m.setPage pg p).felt = m.felt := rfl
@[simp] theorem Mod.setPage_mt (m : Mod) (pg : Nat) (p : Page) : (m.setPage pg p).mt = m.mt := rfl
@[simp] theorem Mod.setPage_pwr (m : Mod) (pg : Nat) (p : Page) : (m.setPage pg p).pwr = m.pwr := rfl
@[simp] theorem Mod.setPage_pins (m : Mod) (pg : Nat) (p : Page) : (m.setPage pg p).pins = m.pins := rfl
@[simp] theorem Mod.setPage_host (m : Mod) (pg : Nat) (p : Page) : (m.setPage pg p).host = m.host := rfl
@[simp] theorem Mod.setPage_regs (m : Mod) (pg : Nat) (p : Page) : (m.setPage pg p).regs = m.regs := rfl
@[simp] theorem Mod.setPage_mem (m : Mod) (pg : Nat) (p : Page) : (m.setPage pg p).mem = m.mem := rfl
@[simp] theorem Mod.setPage_poison (m : Mod) (pg : Nat) (p : Page) : (m.setPage pg p).poison = m.poison := rfl
@[simp] theorem Mod.setPage_once (m : Mod) (pg : Nat) (p : Page) : (m.setPage pg p).once = m.once := rfl
@[simp] theorem Mod.setPage_events (m : Mod) (pg : Nat) (p : Page) : (m.setPage pg p).events = m.events := rfl
@[simp] theorem Mod.setPage_out (m : Mod) (pg : Nat) (p : Page) : (m.setPage pg p).out = m.out := rfl
@[simp] theorem Mod.setPage_free (m : Mod) (pg : Nat) (p : Page) : (m.setPage pg p).free = m.free := rfl

@[simp] theorem Mod.setQueueRaw_time (m : Mod) (q : Nat) (x : Queue) : (m.setQueueRaw q x).time = m.time := rfl
@[simp] theorem Mod.setQueueRaw_fuse (m : Mod) (q : Nat) (x : Queue) : (m.setQueueRaw q x).fuse = m.fuse := rfl
@[simp] theorem Mod.setQueueRaw_modid (m : Mod) (q : Nat) (x : Queue) : (m.setQueueRaw q x).modid = m.modid := rfl
@[simp] theorem Mod.setQueueRaw_crst (m : Mod) (q : Nat) (x : Queue) : (m.setQueueRaw q x).crst = m.crst := rfl
@[simp] theorem Mod.setQueueRaw_antiRollback (m : Mod) (q : Nat) (x : Queue) : (m.setQueueRaw q x).antiRollback = m.antiRollback := rfl
@[simp] theorem Mod.setQueueRaw_fwdOnly (m : Mod) (q : Nat) (x : Queue) : (m.setQueueRaw q x).fwdOnly = m.fwdOnly := rfl
@[simp] theorem Mod.setQueueRaw_nStacks (m : Mod) (q : Nat) (x : Queue) : (m.setQueueRaw q x).nStacks = m.nStacks := rfl
@[simp] theorem Mod.setQueueRaw_lmap (m : Mod) (q : Nat) (x : Queue) : (m.setQueueRaw q x).lmap = m.lmap := rfl
@[simp] theorem Mod.setQueueRaw_engs (m : Mod) (q : Nat) (x : Queue) : (m.setQueueRaw q x).engs = m.engs := rfl
@[simp] theorem Mod.setQueueRaw_ptGroups (m : Mod) (q : Nat) (x : Queue) : (m.setQueueRaw q x).ptGroups = m.ptGroups := rfl
@[simp] theorem Mod.setQueueRaw_ep (m : Mod) (q : Nat) (x : Queue) : (m.setQueueRaw q x).ep = m.ep := rfl
@[simp] theorem Mod.setQueueRaw_js (m : Mod) (q : Nat) (x : Queue) : (m.setQueueRaw q x).js = m.js := rfl
@[simp] theorem Mod.setQueueRaw_ts (m : Mod) (q : Nat) (x : Queue) : (m.setQueueRaw q x).ts = m.ts := rfl
@[simp] theorem Mod.setQueueRaw_clip (m : Mod) (q : Nat) (x : Queue) : (m.setQueueRaw q x).clip = m.clip := rfl
@[simp] theorem Mod.setQueueRaw_kat (m : Mod) (q : Nat) (x : Queue) : (m.setQueueRaw q x).kat = m.kat := rfl
@[simp] theorem Mod.setQueueRaw_lg (m : Mod) (q : Nat) (x : Queue) : (m.setQueueRaw q x).lg = m.lg := rfl
@[simp] theorem Mod.setQueueRaw_sd (m : Mod) (q : Nat) (x : Queue) : (m.setQueueRaw q x).sd = m.sd := rfl
@[simp] theorem Mod.setQueueRaw_ce (m : Mod) (q : Nat) (x : Queue) : (m.setQueueRaw q x).ce = m.ce := rfl
@[simp] theorem Mod.setQueueRaw_rt (m : Mod) (q : Nat) (x : Queue) : (m.setQueueRaw q x).rt = m.rt := rfl
@[simp] theorem Mod.setQueueRaw_ports (m : Mod) (q : Nat) (x : Queue) : (m.setQueueRaw q x).ports = m.ports := rfl
@[simp] theorem Mod.setQueueRaw_dep (m : Mod) (q : Nat) (x : Queue) : (m.setQueueRaw q x).dep = m.dep := rfl
@[simp] theorem Mod.setQueueRaw_stks (m : Mod) (q : Nat) (x : Queue) : (m.setQueueRaw q x).stks = m.stks := rfl
@[simp] theorem Mod.setQueueRaw_felt (m : Mod) (q : Nat) (x : Queue) : (m.setQueueRaw q x).felt = m.felt := rfl
@[simp] theorem Mod.setQueueRaw_mt (m : Mod) (q : Nat) (x : Queue) : (m.setQueueRaw q x).mt = m.mt := rfl
@[simp] theorem Mod.setQueueRaw_pwr (m : Mod) (q : Nat) (x : Queue) : (m.setQueueRaw q x).pwr = m.pwr := rfl
@[simp] theorem Mod.setQueueRaw_pins (m : Mod) (q : Nat) (x : Queue) : (m.setQueueRaw q x).pins = m.pins := rfl
@[simp] theorem Mod.setQueueRaw_host (m : Mod) (q : Nat) (x : Queue) : (m.setQueueRaw q x).host = m.host := rfl
@[simp] theorem Mod.setQueueRaw_pages (m : Mod) (q : Nat) (x : Queue) : (m.setQueueRaw q x).pages = m.pages := rfl
@[simp] theorem Mod.setQueueRaw_regs (m : Mod) (q : Nat) (x : Queue) : (m.setQueueRaw q x).regs = m.regs := rfl
@[simp] theorem Mod.setQueueRaw_mem (m : Mod) (q : Nat) (x : Queue) : (m.setQueueRaw q x).mem = m.mem := rfl
@[simp] theorem Mod.setQueueRaw_poison (m : Mod) (q : Nat) (x : Queue) : (m.setQueueRaw q x).poison = m.poison := rfl
@[simp] theorem Mod.setQueueRaw_once (m : Mod) (q : Nat) (x : Queue) : (m.setQueueRaw q x).once = m.once := rfl
@[simp] theorem Mod.setQueueRaw_events (m : Mod) (q : Nat) (x : Queue) : (m.setQueueRaw q x).events = m.events := rfl
@[simp] theorem Mod.setQueueRaw_out (m : Mod) (q : Nat) (x : Queue) : (m.setQueueRaw q x).out = m.out := rfl
@[simp] theorem Mod.setQueueRaw_free (m : Mod) (q : Nat) (x : Queue) : (m.setQueueRaw q x).free = m.free := rfl

@[simp] theorem Mod.setCtxRaw_time (m : Mod) (c : Nat) (x : Context) : (m.setCtxRaw c x).time = m.time := rfl
@[simp] theorem Mod.setCtxRaw_fuse (m : Mod) (c : Nat) (x : Context) : (m.setCtxRaw c x).fuse = m.fuse := rfl
@[simp] theorem Mod.setCtxRaw_modid (m : Mod) (c : Nat) (x : Context) : (m.setCtxRaw c x).modid = m.modid := rfl
@[simp] theorem Mod.setCtxRaw_crst (m : Mod) (c : Nat) (x : Context) : (m.setCtxRaw c x).crst = m.crst := rfl
@[simp] theorem Mod.setCtxRaw_antiRollback (m : Mod) (c : Nat) (x : Context) : (m.setCtxRaw c x).antiRollback = m.antiRollback := rfl
@[simp] theorem Mod.setCtxRaw_fwdOnly (m : Mod) (c : Nat) (x : Context) : (m.setCtxRaw c x).fwdOnly = m.fwdOnly := rfl
@[simp] theorem Mod.setCtxRaw_nStacks (m : Mod) (c : Nat) (x : Context) : (m.setCtxRaw c x).nStacks = m.nStacks := rfl
@[simp] theorem Mod.setCtxRaw_lmap (m : Mod) (c : Nat) (x : Context) : (m.setCtxRaw c x).lmap = m.lmap := rfl
@[simp] theorem Mod.setCtxRaw_engs (m : Mod) (c : Nat) (x : Context) : (m.setCtxRaw c x).engs = m.engs := rfl
@[simp] theorem Mod.setCtxRaw_ptGroups (m : Mod) (c : Nat) (x : Context) : (m.setCtxRaw c x).ptGroups = m.ptGroups := rfl
@[simp] theorem Mod.setCtxRaw_dsp (m : Mod) (c : Nat) (x : Context) : (m.setCtxRaw c x).dsp = m.dsp := rfl
@[simp] theorem Mod.setCtxRaw_ep (m : Mod) (c : Nat) (x : Context) : (m.setCtxRaw c x).ep = m.ep := rfl
@[simp] theorem Mod.setCtxRaw_js (m : Mod) (c : Nat) (x : Context) : (m.setCtxRaw c x).js = m.js := rfl
@[simp] theorem Mod.setCtxRaw_ts (m : Mod) (c : Nat) (x : Context) : (m.setCtxRaw c x).ts = m.ts := rfl
@[simp] theorem Mod.setCtxRaw_clip (m : Mod) (c : Nat) (x : Context) : (m.setCtxRaw c x).clip = m.clip := rfl
@[simp] theorem Mod.setCtxRaw_kat (m : Mod) (c : Nat) (x : Context) : (m.setCtxRaw c x).kat = m.kat := rfl
@[simp] theorem Mod.setCtxRaw_lg (m : Mod) (c : Nat) (x : Context) : (m.setCtxRaw c x).lg = m.lg := rfl
@[simp] theorem Mod.setCtxRaw_sd (m : Mod) (c : Nat) (x : Context) : (m.setCtxRaw c x).sd = m.sd := rfl
@[simp] theorem Mod.setCtxRaw_rt (m : Mod) (c : Nat) (x : Context) : (m.setCtxRaw c x).rt = m.rt := rfl
@[simp] theorem Mod.setCtxRaw_ports (m : Mod) (c : Nat) (x : Context) : (m.setCtxRaw c x).ports = m.ports := rfl
@[simp] theorem Mod.setCtxRaw_dep (m : Mod) (c : Nat) (x : Context) : (m.setCtxRaw c x).dep = m.dep := rfl
@[simp] theorem Mod.setCtxRaw_stks (m : Mod) (c : Nat) (x : Context) : (m.setCtxRaw c x).stks = m.stks := rfl
@[simp] theorem Mod.setCtxRaw_felt (m : Mod) (c : Nat) (x : Context) : (m.setCtxRaw c x).felt = m.felt := rfl
@[simp] theorem Mod.setCtxRaw_mt (m : Mod) (c : Nat) (x : Context) : (m.setCtxRaw c x).mt = m.mt := rfl
@[simp] theorem Mod.setCtxRaw_pwr (m : Mod) (c : Nat) (x : Context) : (m.setCtxRaw c x).pwr = m.pwr := rfl
@[simp] theorem Mod.setCtxRaw_pins (m : Mod) (c : Nat) (x : Context) : (m.setCtxRaw c x).pins = m.pins := rfl
@[simp] theorem Mod.setCtxRaw_host (m : Mod) (c : Nat) (x : Context) : (m.setCtxRaw c x).host = m.host := rfl
@[simp] theorem Mod.setCtxRaw_pages (m : Mod) (c : Nat) (x : Context) : (m.setCtxRaw c x).pages = m.pages := rfl
@[simp] theorem Mod.setCtxRaw_regs (m : Mod) (c : Nat) (x : Context) : (m.setCtxRaw c x).regs = m.regs := rfl
@[simp] theorem Mod.setCtxRaw_mem (m : Mod) (c : Nat) (x : Context) : (m.setCtxRaw c x).mem = m.mem := rfl
@[simp] theorem Mod.setCtxRaw_poison (m : Mod) (c : Nat) (x : Context) : (m.setCtxRaw c x).poison = m.poison := rfl
@[simp] theorem Mod.setCtxRaw_once (m : Mod) (c : Nat) (x : Context) : (m.setCtxRaw c x).once = m.once := rfl
@[simp] theorem Mod.setCtxRaw_events (m : Mod) (c : Nat) (x : Context) : (m.setCtxRaw c x).events = m.events := rfl
@[simp] theorem Mod.setCtxRaw_out (m : Mod) (c : Nat) (x : Context) : (m.setCtxRaw c x).out = m.out := rfl
@[simp] theorem Mod.setCtxRaw_free (m : Mod) (c : Nat) (x : Context) : (m.setCtxRaw c x).free = m.free := rfl

@[simp] theorem Mod.setTask_time (m : Mod) (t : Task) : (m.setTask t).time = m.time := rfl
@[simp] theorem Mod.setTask_fuse (m : Mod) (t : Task) : (m.setTask t).fuse = m.fuse := rfl
@[simp] theorem Mod.setTask_modid (m : Mod) (t : Task) : (m.setTask t).modid = m.modid := rfl
@[simp] theorem Mod.setTask_crst (m : Mod) (t : Task) : (m.setTask t).crst = m.crst := rfl
@[simp] theorem Mod.setTask_antiRollback (m : Mod) (t : Task) : (m.setTask t).antiRollback = m.antiRollback := rfl
@[simp] theorem Mod.setTask_fwdOnly (m : Mod) (t : Task) : (m.setTask t).fwdOnly = m.fwdOnly := rfl
@[simp] theorem Mod.setTask_nStacks (m : Mod) (t : Task) : (m.setTask t).nStacks = m.nStacks := rfl
@[simp] theorem Mod.setTask_lmap (m : Mod) (t : Task) : (m.setTask t).lmap = m.lmap := rfl
@[simp] theorem Mod.setTask_engs (m : Mod) (t : Task) : (m.setTask t).engs = m.engs := rfl
@[simp] theorem Mod.setTask_ptGroups (m : Mod) (t : Task) : (m.setTask t).ptGroups = m.ptGroups := rfl
@[simp] theorem Mod.setTask_ep (m : Mod) (t : Task) : (m.setTask t).ep = m.ep := rfl
@[simp] theorem Mod.setTask_js (m : Mod) (t : Task) : (m.setTask t).js = m.js := rfl
@[simp] theorem Mod.setTask_ts (m : Mod) (t : Task) : (m.setTask t).ts = m.ts := rfl
@[simp] theorem Mod.setTask_clip (m : Mod) (t : Task) : (m.setTask t).clip = m.clip := rfl
@[simp] theorem Mod.setTask_kat (m : Mod) (t : Task) : (m.setTask t).kat = m.kat := rfl
@[simp] theorem Mod.setTask_lg (m : Mod) (t : Task) : (m.setTask t).lg = m.lg := rfl
@[simp] theorem Mod.setTask_sd (m : Mod) (t : Task) : (m.setTask t).sd = m.sd := rfl
@[simp] theorem Mod.setTask_ce (m : Mod) (t : Task) : (m.setTask t).ce = m.ce := rfl
@[simp] theorem Mod.setTask_rt (m : Mod) (t : Task) : (m.setTask t).rt = m.rt := rfl
@[simp] theorem Mod.setTask_ports (m : Mod) (t : Task) : (m.setTask t).ports = m.ports := rfl
@[simp] theorem Mod.setTask_dep (m : Mod) (t : Task) : (m.setTask t).dep = m.dep := rfl
@[simp] theorem Mod.setTask_stks (m : Mod) (t : Task) : (m.setTask t).stks = m.stks := rfl
@[simp] theorem Mod.setTask_felt (m : Mod) (t : Task) : (m.setTask t).felt = m.felt := rfl
@[simp] theorem Mod.setTask_mt (m : Mod) (t : Task) : (m.setTask t).mt = m.mt := rfl
@[simp] theorem Mod.setTask_pwr (m : Mod) (t : Task) : (m.setTask t).pwr = m.pwr := rfl
@[simp] theorem Mod.setTask_pins (m : Mod) (t : Task) : (m.setTask t).pins = m.pins := rfl
@[simp] theorem Mod.setTask_host (m : Mod) (t : Task) : (m.setTask t).host = m.host := rfl
@[simp] theorem Mod.setTask_pages (m : Mod) (t : Task) : (m.setTask t).pages = m.pages := rfl
@[simp] theorem Mod.setTask_regs (m : Mod) (t : Task) : (m.setTask t).regs = m.regs := rfl
@[simp] theorem Mod.setTask_mem (m : Mod) (t : Task) : (m.setTask t).mem = m.mem := rfl
@[simp] theorem Mod.setTask_poison (m : Mod) (t : Task) : (m.setTask t).poison = m.poison := rfl
@[simp] theorem Mod.setTask_once (m : Mod) (t : Task) : (m.setTask t).once = m.once := rfl
@[simp] theorem Mod.setTask_events (m : Mod) (t : Task) : (m.setTask t).events = m.events := rfl
@[simp] theorem Mod.setTask_out (m : Mod) (t : Task) : (m.setTask t).out = m.out := rfl
@[simp] theorem Mod.setTask_free (m : Mod) (t : Task) : (m.setTask t).free = m.free := rfl

@[simp] theorem Mod.dropTask_time (m : Mod) (q idx : Nat) : (m.dropTask q idx).time = m.time := rfl
@[simp] theorem Mod.dropTask_fuse (m : Mod) (q idx : Nat) : (m.dropTask q idx).fuse = m.fuse := rfl
@[simp] theorem Mod.dropTask_modid (m : Mod) (q idx : Nat) : (m.dropTask q idx).modid = m.modid := rfl
@[simp] theorem Mod.dropTask_crst (m : Mod) (q idx : Nat) : (m.dropTask q idx).crst = m.crst := rfl
@[simp] theorem Mod.dropTask_antiRollback (m : Mod) (q idx : Nat) : (m.dropTask q idx).antiRollback = m.antiRollback := rfl
@[simp] theorem Mod.dropTask_fwdOnly (m : Mod) (q idx : Nat) : (m.dropTask q idx).fwdOnly = m.fwdOnly := rfl
@[simp] theorem Mod.dropTask_nStacks (m : Mod) (q idx : Nat) : (m.dropTask q idx).nStacks = m.nStacks := rfl
@[simp] theorem Mod.dropTask_lmap (m : Mod) (q idx : Nat) : (m.dropTask q idx).lmap = m.lmap := rfl
@[simp] theorem Mod.dropTask_engs (m : Mod) (q idx : Nat) : (m.dropTask q idx).engs = m.engs := rfl
@[simp] theorem Mod.dropTask_ptGroups (m : Mod) (q idx : Nat) : (m.dropTask q idx).ptGroups = m.ptGroups := rfl
@[simp] theorem Mod.dropTask_ep (m : Mod) (q idx : Nat) : (m.dropTask q idx).ep = m.ep := rfl
@[simp] theorem Mod.dropTask_js (m : Mod) (q idx : Nat) : (m.dropTask q idx).js = m.js := rfl
@[simp] theorem Mod.dropTask_ts (m : Mod) (q idx : Nat) : (m.dropTask q idx).ts = m.ts := rfl
@[simp] theorem Mod.dropTask_clip (m : Mod) (q idx : Nat) : (m.dropTask q idx).clip = m.clip := rfl
@[simp] theorem Mod.dropTask_kat (m : Mod) (q idx : Nat) : (m.dropTask q idx).kat = m.kat := rfl
@[simp] theorem Mod.dropTask_lg (m : Mod) (q idx : Nat) : (m.dropTask q idx).lg = m.lg := rfl
@[simp] theorem Mod.dropTask_sd (m : Mod) (q idx : Nat) : (m.dropTask q idx).sd = m.sd := rfl
@[simp] theorem Mod.dropTask_ce (m : Mod) (q idx : Nat) : (m.dropTask q idx).ce = m.ce := rfl
@[simp] theorem Mod.dropTask_rt (m : Mod) (q idx : Nat) : (m.dropTask q idx).rt = m.rt := rfl
@[simp] theorem Mod.dropTask_ports (m : Mod) (q idx : Nat) : (m.dropTask q idx).ports = m.ports := rfl
@[simp] theorem Mod.dropTask_dep (m : Mod) (q idx : Nat) : (m.dropTask q idx).dep = m.dep := rfl
@[simp] theorem Mod.dropTask_stks (m : Mod) (q idx : Nat) : (m.dropTask q idx).stks = m.stks := rfl
@[simp] theorem Mod.dropTask_felt (m : Mod) (q idx : Nat) : (m.dropTask q idx).felt = m.felt := rfl
@[simp] theorem Mod.dropTask_mt (m : Mod) (q idx : Nat) : (m.dropTask q idx).mt = m.mt := rfl
@[simp] theorem Mod.dropTask_pwr (m : Mod) (q idx : Nat) : (m.dropTask q idx).pwr = m.pwr := rfl
@[simp] theorem Mod.dropTask_pins (m : Mod) (q idx : Nat) : (m.dropTask q idx).pins = m.pins := rfl
@[simp] theorem Mod.dropTask_host (m : Mod) (q idx : Nat) : (m.dropTask q idx).host = m.host := rfl
@[simp] theorem Mod.dropTask_pages (m : Mod) (q idx : Nat) : (m.dropTask q idx).pages = m.pages := rfl
@[simp] theorem Mod.dropTask_regs (m : Mod) (q idx : Nat) : (m.dropTask q idx).regs = m.regs := rfl
@[simp] theorem Mod.dropTask_mem (m : Mod) (q idx : Nat) : (m.dropTask q idx).mem = m.mem := rfl
@[simp] theorem Mod.dropTask_poison (m : Mod) (q idx : Nat) : (m.dropTask q idx).poison = m.poison := rfl
@[simp] theorem Mod.dropTask_once (m : Mod) (q idx : Nat) : (m.dropTask q idx).once = m.once := rfl
@[simp] theorem Mod.dropTask_events (m : Mod) (q idx : Nat) : (m.dropTask q idx).events = m.events := rfl
@[simp] theorem Mod.dropTask_out (m : Mod) (q idx : Nat) : (m.dropTask q idx).out = m.out := rfl
@[simp] theorem Mod.dropTask_free (m : Mod) (q idx : Nat) : (m.dropTask q idx).free = m.free := rfl

@[simp] theorem Mod.send_time (m : Mod) (o : Out) : (m.send o).time = m.time := rfl
@[simp] theorem Mod.send_fuse (m : Mod) (o : Out) : (m.send o).fuse = m.fuse := rfl
@[simp] theorem Mod.send_modid (m : Mod) (o : Out) : (m.send o).modid = m.modid := rfl
@[simp] theorem Mod.send_crst (m : Mod) (o : Out) : (m.send o).crst = m.crst := rfl
@[simp] theorem Mod.send_antiRollback (m : Mod) (o : Out) : (m.send o).antiRollback = m.antiRollback := rfl
@[simp] theorem Mod.send_fwdOnly (m : Mod) (o : Out) : (m.send o).fwdOnly = m.fwdOnly := rfl
@[simp] theorem Mod.send_nStacks (m : Mod) (o : Out) : (m.send o).nStacks = m.nStacks := rfl
@[simp] theorem Mod.send_lmap (m : Mod) (o : Out) : (m.send o).lmap = m.lmap := rfl
@[simp] theorem Mod.send_engs (m : Mod) (o : Out) : (m.send o).engs = m.engs := rfl
@[simp] theorem Mod.send_ptGroups (m : Mod) (o : Out) : (m.send o).ptGroups = m.ptGroups := rfl
@[simp] theorem Mod.send_dsp (m : Mod) (o : Out) : (m.send o).dsp = m.dsp := rfl
@[simp] theorem Mod.send_ep (m : Mod) (o : Out) : (m.send o).ep = m.ep := rfl
@[simp] theorem Mod.send_js (m : Mod) (o : Out) : (m.send o).js = m.js := rfl
@[simp] theorem Mod.send_ts (m : Mod) (o : Out) : (m.send o).ts = m.ts := rfl
@[simp] theorem Mod.send_clip (m : Mod) (o : Out) : (m.send o).clip = m.clip := rfl
@[simp] theorem Mod.send_kat (m : Mod) (o : Out) : (m.send o).kat = m.kat := rfl
@[simp] theorem Mod.send_lg (m : Mod) (o : Out) : (m.send o).lg = m.lg := rfl
@[simp] theorem Mod.send_sd (m : Mod) (o : Out) : (m.send o).sd = m.sd := rfl
@[simp] theorem Mod.send_ce (m : Mod) (o : Out) : (m.send o).ce = m.ce := rfl
@[simp] theorem Mod.send_rt (m : Mod) (o : Out) : (m.send o).rt = m.rt := rfl
@[simp] theorem Mod.send_ports (m : Mod) (o : Out) : (m.send o).ports = m.ports := rfl
@[simp] theorem Mod.send_dep (m : Mod) (o : Out) : (m.send o).dep = m.dep := rfl
@[simp] theorem Mod.send_stks (m : Mod) (o : Out) : (m.send o).stks = m.stks := rfl
@[simp] theorem Mod.send_felt (m : Mod) (o : Out) : (m.send o).felt = m.felt := rfl
@[simp] theorem Mod.send_mt (m : Mod) (o : Out) : (m.send o).mt = m.mt := rfl
@[simp] theorem Mod.send_pwr (m : Mod) (o : Out) : (m.send o).pwr = m.pwr := rfl
@[simp] theorem Mod.send_pins (m : Mod) (o : Out) : (m.send o).pins = m.pins := rfl
@[simp] theorem Mod.send_host (m : Mod) (o : Out) : (m.send o).host = m.host := rfl
@[simp] theorem Mod.send_pages (m : Mod) (o : Out) : (m.send o).pages = m.pages := rfl
@[simp] theorem Mod.send_regs (m : Mod) (o : Out) : (m.send o).regs = m.regs := rfl
@[simp] theorem Mod.send_mem (m : Mod) (o : Out) : (m.send o).mem = m.mem := rfl
@[simp] theorem Mod.send_poison (m : Mod) (o : Out) : (m.send o).poison = m.poison := rfl
@[simp] theorem Mod.send_once (m : Mod) (o : Out) : (m.send o).once = m.once := rfl
@[simp] theorem Mod.send_events (m : Mod) (o : Out) : (m.send o).events = m.events := rfl
@[simp] theorem Mod.send_free (m : Mod) (o : Out) : (m.send o).free = m.free := rfl

@[simp] theorem Mod.wrPairs_time (m : Mod) (ws : List (Nat × Nat)) : (m.wrPairs ws).time = m.time := rfl
@[simp] theorem Mod.wrPairs_fuse (m : Mod) (ws : List (Nat × Nat)) : (m.wrPairs ws).fuse = m.fuse := rfl
@[simp] theorem Mod.wrPairs_modid (m : Mod) (ws : List (Nat × Nat)) : (m.wrPairs ws).modid = m.modid := rfl
@[simp] theorem Mod.wrPairs_crst (m : Mod) (ws : List (Nat × Nat)) : (m.wrPairs ws).crst = m.crst := rfl
@[simp] theorem Mod.wrPairs_antiRollback (m : Mod) (ws : List (Nat × Nat)) : (m.wrPairs ws).antiRollback = m.antiRollback := rfl
@[simp] theorem Mod.wrPairs_fwdOnly (m : Mod) (ws : List (Nat × Nat)) : (m.wrPairs ws).fwdOnly = m.fwdOnly := rfl
@[simp] theorem Mod.wrPairs_nStacks (m : Mod) (ws : List (Nat × Nat)) : (m.wrPairs ws).nStacks = m.nStacks := rfl
@[simp] theorem Mod.wrPairs_lmap (m : Mod) (ws : List (Nat × Nat)) : (m.wrPairs ws).lmap = m.lmap := rfl
@[simp] theorem Mod.wrPairs_engs (m : Mod) (ws : List (Nat × Nat)) : (m.wrPairs ws).engs = m.engs := rfl
@[simp] theorem Mod.wrPairs_ptGroups (m : Mod) (ws : List (Nat × Nat)) : (m.wrPairs ws).ptGroups = m.ptGroups := rfl
@[simp] theorem Mod.wrPairs_dsp (m : Mod) (ws : List (Nat × Nat)) : (m.wrPairs ws).dsp = m.dsp := rfl
@[simp] theorem Mod.wrPairs_ep (m : Mod) (ws : List (Nat × Nat)) : (m.wrPairs ws).ep = m.ep := rfl
@[simp] theorem Mod.wrPairs_js (m : Mod) (ws : List (Nat × Nat)) : (m.wrPairs ws).js = m.js := rfl
@[simp] theorem Mod.wrPairs_ts (m : Mod) (ws : List (Nat × Nat)) : (m.wrPairs ws).ts = m.ts := rfl
@[simp] theorem Mod.wrPairs_clip (m : Mod) (ws : List (Nat × Nat)) : (m.wrPairs ws).clip = m.clip := rfl
@[simp] theorem Mod.wrPairs_kat (m : Mod) (ws : List (Nat × Nat)) : (m.wrPairs ws).kat = m.kat := rfl
@[simp] theorem Mod.wrPairs_lg (m : Mod) (ws : List (Nat × Nat)) : (m.wrPairs ws).lg = m.lg := rfl
@[simp] theorem Mod.wrPairs_sd (m : Mod) (ws : List (Nat × Nat)) : (m.wrPairs ws).sd = m.sd := rfl
@[simp] theorem Mod.wrPairs_ce (m : Mod) (ws : List (Nat × Nat)) : (m.wrPairs ws).ce = m.ce := rfl
@[simp] theorem Mod.wrPairs_rt (m : Mod) (ws : List (Nat × Nat)) : (m.wrPairs ws).rt = m.rt := rfl
@[simp] theorem Mod.wrPairs_ports (m : Mod) (ws : List (Nat × Nat)) : (m.wrPairs ws).ports = m.ports := rfl
@[simp] theorem Mod.wrPairs_dep (m : Mod) (ws : List (Nat × Nat)) : (m.wrPairs ws).dep = m.dep := rfl
@[simp] theorem Mod.wrPairs_stks (m : Mod) (ws : List (Nat × Nat)) : (m.wrPairs ws).stks = m.stks := rfl
@[simp] theorem Mod.wrPairs_felt (m : Mod) (ws : List (Nat × Nat)) : (m.wrPairs ws).felt = m.felt := rfl
@[simp] theorem Mod.wrPairs_mt (m : Mod) (ws : List (Nat × Nat)) : (m.wrPairs ws).mt = m.mt := rfl
@[simp] theorem Mod.wrPairs_pwr (m : Mod) (ws : List (Nat × Nat)) : (m.wrPairs ws).pwr = m.pwr := rfl
@[simp] theorem Mod.wrPairs_pins (m : Mod) (ws : List (Nat × Nat)) : (m.wrPairs ws).pins = m.pins := rfl
@[simp] theorem Mod.wrPairs_host (m : Mod) (ws : List (Nat × Nat)) : (m.wrPairs ws).host = m.host := rfl
@[simp] theorem Mod.wrPairs_pages (m : Mod) (ws : List (Nat × Nat)) : (m.wrPairs ws).pages = m.pages := rfl
@[simp] theorem Mod.wrPairs_regs (m : Mod) (ws : List (Nat × Nat)) : (m.wrPairs ws).regs = m.regs := rfl
@[simp] theorem Mod.wrPairs_poison (m : Mod) (ws : List (Nat × Nat)) : (m.wrPairs ws).poison = m.poison := rfl
@[simp] theorem Mod.wrPairs_once (m : Mod) (ws : List (Nat × Nat)) : (m.wrPairs ws).once = m.once := rfl
@[simp] theorem Mod.wrPairs_events (m : Mod) (ws : List (Nat × Nat)) : (m.wrPairs ws).events = m.events := rfl
@[simp] theorem Mod.wrPairs_out (m : Mod) (ws : List (Nat × Nat)) : (m.wrPairs ws).out = m.out := rfl
@[simp] theorem Mod.wrPairs_free (m : Mod) (ws : List (Nat × Nat)) : (m.wrPairs ws).free = m.free := rfl

@[simp] theorem Mod.wr_time (m : Mod) (a : Nat) (bs : List Nat) : (m.wr a bs).time = m.time := rfl
@[simp] theorem Mod.wr_fuse (m : Mod) (a : Nat) (bs : List Nat) : (m.wr a bs).fuse = m.fuse := rfl
@[simp] theorem Mod.wr_modid (m : Mod) (a : Nat) (bs : List Nat) : (m.wr a bs).modid = m.modid := rfl
@[simp] theorem Mod.wr_crst (m : Mod) (a : Nat) (bs : List Nat) : (m.wr a bs).crst = m.crst := rfl
@[simp] theorem Mod.wr_antiRollback (m : Mod) (a : Nat) (bs : List Nat) : (m.wr a bs).antiRollback = m.antiRollback := rfl
@[simp] theorem Mod.wr_fwdOnly (m : Mod) (a : Nat) (bs : List Nat) : (m.wr a bs).fwdOnly = m.fwdOnly := rfl
@[simp] theorem Mod.wr_nStacks (m : Mod) (a : Nat) (bs : List Nat) : (m.wr a bs).nStacks = m.nStacks := rfl
@[simp] theorem Mod.wr_ptGroups (m : Mod) (a : Nat) (bs : List Nat) : (m.wr a bs).ptGroups = m.ptGroups := rfl
@[simp] theorem Mod.wr_dsp (m : Mod) (a : Nat) (bs : List Nat) : (m.wr a bs).dsp = m.dsp := rfl
@[simp] theorem Mod.wr_ep (m : Mod) (a : Nat) (bs : List Nat) : (m.wr a bs).ep = m.ep := rfl
@[simp] theorem Mod.wr_js (m : Mod) (a : Nat) (bs : List Nat) : (m.wr a bs).js = m.js := rfl
@[simp] theorem Mod.wr_ts (m : Mod) (a : Nat) (bs : List Nat) : (m.wr a bs).ts = m.ts := rfl
@[simp] theorem Mod.wr_clip (m : Mod) (a : Nat) (bs : List Nat) : (m.wr a bs).clip = m.clip := rfl
@[simp] theorem Mod.wr_kat (m : Mod) (a : Nat) (bs : List Nat) : (m.wr a bs).kat = m.kat := rfl
@[simp] theorem Mod.wr_lg (m : Mod) (a : Nat) (bs : List Nat) : (m.wr a bs).lg = m.lg := rfl
@[simp] theorem Mod.wr_sd (m : Mod) (a : Nat) (bs : List Nat) : (m.wr a bs).sd = m.sd := rfl
@[simp] theorem Mod.wr_ce (m : Mod) (a : Nat) (bs : List Nat) : (m.wr a bs).ce = m.ce := rfl
@[simp] theorem Mod.wr_rt (m : Mod) (a : Nat) (bs : List Nat) : (m.wr a bs).rt = m.rt := rfl
@[simp] theorem Mod.wr_ports (m : Mod) (a : Nat) (bs : List Nat) : (m.wr a bs).ports = m.ports := rfl
@[simp] theorem Mod.wr_dep (m : Mod) (a : Nat) (bs : List Nat) : (m.wr a bs).dep = m.dep := rfl
@[simp] theorem Mod.wr_stks (m : Mod) (a : Nat) (bs : List Nat) : (m.wr a bs).stks = m.stks := rfl
@[simp] theorem Mod.wr_felt (m : Mod) (a : Nat) (bs : List Nat) : (m.wr a bs).felt = m.felt := rfl
@[simp] theorem Mod.wr_mt (m : Mod) (a : Nat) (bs : List Nat) : (m.wr a bs).mt = m.mt := rfl
@[simp] theorem Mod.wr_pwr (m : Mod) (a : Nat) (bs : List Nat) : (m.wr a bs).pwr = m.pwr := rfl
@[simp] theorem Mod.wr_pins (m : Mod) (a : Nat) (bs : List Nat) : (m.wr a bs).pins = m.pins := rfl
@[simp] theorem Mod.wr_host (m : Mod) (a : Nat) (bs : List Nat) : (m.wr a bs).host = m.host := rfl
@[simp] theorem Mod.wr_pages (m : Mod) (a : Nat) (bs : List Nat) : (m.wr a bs).pages = m.pages := rfl
@[simp] theorem Mod.wr_out (m : Mod) (a : Nat) (bs : List Nat) : (m.wr a bs).out = m.out := rfl
@[simp] theorem Mod.wr_free (m : Mod) (a : Nat) (bs : List Nat) : (m.wr a bs).free = m.free := rfl

@[simp] theorem Mod.bump_time (m : Mod) (pg off n : Nat) : (m.bump pg off n).time = m.time := rfl
@[simp] theorem Mod.bump_fuse (m : Mod) (pg off n : Nat) : (m.bump pg off n).fuse = m.fuse := rfl
@[simp] theorem Mod.bump_modid (m : Mod) (pg off n : Nat) : (m.bump pg off n).modid = m.modid := rfl
@[simp] theorem Mod.bump_crst (m : Mod) (pg off n : Nat) : (m.bump pg off n).crst = m.crst := rfl
@[simp] theorem Mod.bump_antiRollback (m : Mod) (pg off n : Nat) : (m.bump pg off n).antiRollback = m.antiRollback := rfl
@[simp] theorem Mod.bump_fwdOnly (m : Mod) (pg off n : Nat) : (m.bump pg off n).fwdOnly = m.fwdOnly := rfl
@[simp] theorem Mod.bump_nStacks (m : Mod) (pg off n : Nat) : (m.bump pg off n).nStacks = m.nStacks := rfl
@[simp] theorem Mod.bump_lmap (m : Mod) (pg off n : Nat) : (m.bump pg off n).lmap = m.lmap := rfl
@[simp] theorem Mod.bump_engs (m : Mod) (pg off n : Nat) : (m.bump pg off n).engs = m.engs := rfl
@[simp] theorem Mod.bump_ptGroups (m : Mod) (pg off n : Nat) : (m.bump pg off n).ptGroups = m.ptGroups := rfl
@[simp] theorem Mod.bump_dsp (m : Mod) (pg off n : Nat) : (m.bump pg off n).dsp = m.dsp := rfl
@[simp] theorem Mod.bump_ep (m : Mod) (pg off n : Nat) : (m.bump pg off n).ep = m.ep := rfl
@[simp] theorem Mod.bump_js (m : Mod) (pg off n : Nat) : (m.bump pg off n).js = m.js := rfl
@[simp] theorem Mod.bump_ts (m : Mod) (pg off n : Nat) : (m.bump pg off n).ts = m.ts := rfl
@[simp] theorem Mod.bump_clip (m : Mod) (pg off n : Nat) : (m.bump pg off n).clip = m.clip := rfl
@[simp] theorem Mod.bump_kat (m : Mod) (pg off n : Nat) : (m.bump pg off n).kat = m.kat := rfl
@[simp] theorem Mod.bump_lg (m : Mod) (pg off n : Nat) : (m.bump pg off n).lg = m.lg := rfl
@[simp] theorem Mod.bump_sd (m : Mod) (pg off n : Nat) : (m.bump pg off n).sd = m.sd := rfl
@[simp] theorem Mod.bump_ce (m : Mod) (pg off n : Nat) : (m.bump pg off n).ce = m.ce := rfl
@[simp] theorem Mod.bump_rt (m : Mod) (pg off n : Nat) : (m.bump pg off n).rt = m.rt := rfl
@[simp] theorem Mod.bump_ports (m : Mod) (pg off n : Nat) : (m.bump pg off n).ports = m.ports := rfl
@[simp] theorem Mod.bump_dep (m : Mod) (pg off n : Nat) : (m.bump pg off n).dep = m.dep := rfl
@[simp] theorem Mod.bump_stks (m : Mod) (pg off n : Nat) : (m.bump pg off n).stks = m.stks := rfl
@[simp] theorem Mod.bump_felt (m : Mod) (pg off n : Nat) : (m.bump pg off n).felt = m.felt := rfl
@[simp] theorem Mod.bump_mt (m : Mod) (pg off n : Nat) : (m.bump pg off n).mt = m.mt := rfl
@[simp] theorem Mod.bump_pwr (m : Mod) (pg off n : Nat) : (m.bump pg off n).pwr = m.pwr := rfl
@[simp] theorem Mod.bump_pins (m : Mod) (pg off n : Nat) : (m.bump pg off n).pins = m.pins := rfl
@[simp] theorem Mod.bump_host (m : Mod) (pg off n : Nat) : (m.bump pg off n).host = m.host := rfl
@[simp] theorem Mod.bump_pages (m : Mod) (pg off n : Nat) : (m.bump pg off n).pages = m.pages := rfl
@[simp] theorem Mod.bump_mem (m : Mod) (pg off n : Nat) : (m.bump pg off n).mem = m.mem := rfl
@[simp] theorem Mod.bump_poison (m : Mod) (pg off n : Nat) : (m.bump pg off n).poison = m.poison := rfl
@[simp] theorem Mod.bump_once (m : Mod) (pg off n : Nat) : (m.bump pg off n).once = m.once := rfl
@[simp] theorem Mod.bump_events (m : Mod) (pg off n : Nat) : (m.bump pg off n).events = m.events := rfl
@[simp] theorem Mod.bump_out (m : Mod) (pg off n : Nat) : (m.bump pg off n).out = m.out := rfl
@[simp] theorem Mod.bump_free (m : Mod) (pg off n : Nat) : (m.bump pg off n).free = m.free := rfl


/-! Reporting -/

theorem Mod.Quiet.refl (m : Mod) : m.Quiet m := rfl

theorem Mod.Quiet.trans {a b c : Mod} (h : a.Quiet b) (h' : b.Quiet c) : a.Quiet c := by
  unfold Mod.Quiet at *
  rw [h] at h'
  exact h'

theorem Mod.quiet_host (m : Mod) (h : HostIf) : m.Quiet { m with host := h } := rfl
theorem Mod.quiet_events (m : Mod) (l : List Event) : m.Quiet { m with events := l } := rfl
theorem Mod.quiet_setReg (m : Mod) (pg off v : Nat) : m.Quiet (m.setReg pg off v) := rfl
theorem Mod.quiet_bump (m : Mod) (pg off n : Nat) : m.Quiet (m.bump pg off n) := rfl
theorem Mod.quiet_setPage (m : Mod) (pg : Nat) (p : Page) : m.Quiet (m.setPage pg p) := rfl
theorem Mod.quiet_send (m : Mod) (o : Out) : m.Quiet (m.send o) := rfl

theorem Mod.quiet_msix (m : Mod) (v : Nat) : m.Quiet (m.msix v) := by
  unfold Mod.msix
  split
  · rfl
  · split <;> rfl

theorem Mod.quiet_feltLog (m : Mod) (e : Event) : m.Quiet (m.feltLog e) := by
  unfold Mod.feltLog
  split <;> rfl

theorem Mod.quiet_note (m : Mod) (e : Event) : m.Quiet (m.note e) := by
  have h : m.Quiet ({ m with events := e :: m.events }.feltLog e) := (Mod.quiet_events m _).trans (Mod.quiet_feltLog _ e)
  unfold Mod.note
  dsimp only
  split
  · exact h.trans rfl
  · exact h

theorem Mod.quiet_evrWrite (m : Mod) (e : Event) : m.Quiet (m.evrWrite e) := rfl

theorem Mod.quiet_evrOffer (m : Mod) (e : Event) : m.Quiet (m.evrOffer e) := by
  unfold Mod.evrOffer
  split
  · exact Mod.quiet_evrWrite m e
  · split <;> rfl

theorem Mod.quiet_offers (l : List Event) (m : Mod) : m.Quiet (l.foldl Mod.evrOffer m) := by
  induction l generalizing m with
  | nil => rfl
  | cons e l ih => exact (Mod.quiet_evrOffer m e).trans (ih _)

theorem Mod.quiet_evrIrq (m : Mod) : m.Quiet m.evrIrq := by
  unfold Mod.evrIrq
  split
  · exact (Mod.quiet_host m _).trans (Mod.quiet_msix _ _)
  · rfl

theorem Mod.quiet_evrGroup (old m : Mod) : m.Quiet (Mod.evrGroup old m) := by
  unfold Mod.evrGroup
  split
  · exact (Mod.quiet_host m _).trans (Mod.quiet_evrIrq _)
  · rfl

theorem Mod.quiet_evrSettle (m : Mod) : m.Quiet m.evrSettle := by
  unfold Mod.evrSettle
  split
  · rfl
  · exact ((Mod.quiet_host m _).trans (Mod.quiet_offers _ _)).trans (Mod.quiet_evrGroup m _)

theorem Mod.quiet_evrHold (m : Mod) (e : Event) : m.Quiet (m.evrHold e) := by
  unfold Mod.evrHold
  dsimp only
  split
  · split
    · exact (Mod.quiet_evrSettle m).trans (Mod.quiet_host _ _)
    · exact Mod.quiet_host m _
  · rfl

theorem Mod.quiet_errBit (m : Mod) (pg bit : Nat) : m.Quiet (m.errBit pg bit).1 := by
  unfold Mod.errBit
  dsimp only
  split
  · rfl
  · split
    · exact (Mod.quiet_setPage m pg _).trans (Mod.quiet_msix _ _)
    · rfl

theorem Mod.quiet_record (m : Mod) (pg code d0 d1 d2 d3 : Nat) : m.Quiet (m.record pg code d0 d1 d2 d3) :=
  (Mod.quiet_note m _).trans (Mod.quiet_evrHold _ _)

/-- Everything that raising an event can do. -/
theorem Mod.quiet_emit (m : Mod) (pg code d0 d1 d2 d3 : Nat) : m.Quiet (m.emit pg code d0 d1 d2 d3) := by
  unfold Mod.emit
  split
  · exact (Mod.quiet_record m _ _ _ _ _ _).trans (Mod.quiet_errBit _ _ _)
  · exact Mod.quiet_record m _ _ _ _ _ _

theorem Mod.quiet_pageErr (m : Mod) (pg bit code d0 d1 d2 d3 : Nat) : m.Quiet (m.pageErr pg bit code d0 d1 d2 d3) := by
  unfold Mod.pageErr
  have h := Mod.quiet_errBit m pg bit
  cases hb : m.errBit pg bit with
  | mk m1 rose =>
    rw [hb] at h
    dsimp only
    split
    · exact h.trans (Mod.quiet_record _ _ _ _ _ _ _)
    · exact h

theorem Mod.quiet_ignored (m : Mod) (pg off v init : Nat) : m.Quiet (m.ignored pg off v init) := Mod.quiet_pageErr _ _ _ _ _ _ _ _

theorem Mod.quiet_evrDrain (n : Nat) (m : Mod) : m.Quiet (Mod.evrDrain n m) := by
  induction n generalizing m with
  | zero => rfl
  | succ n ih =>
    unfold Mod.evrDrain
    split
    · rfl
    · split
      · rfl
      · exact ((Mod.quiet_host m _).trans (Mod.quiet_evrWrite _ _)).trans (ih _)

theorem Mod.quiet_evrLost (m : Mod) : m.Quiet m.evrLost := by
  unfold Mod.evrLost
  split
  · rfl
  · exact ((Mod.quiet_host m _).trans (Mod.quiet_note _ _)).trans (Mod.quiet_evrWrite _ _)

theorem Mod.quiet_evrNext (m : Mod) : m.Quiet m.evrNext := by
  unfold Mod.evrNext
  refine Mod.Quiet.trans ?_ (Mod.quiet_evrSettle _)
  split
  · rfl
  · exact ((Mod.quiet_evrLost m).trans (Mod.quiet_evrDrain _ _)).trans (Mod.quiet_evrGroup m _)

theorem Mod.quiet_evrFlush (m : Mod) : m.Quiet m.evrFlush := (Mod.quiet_evrDrain _ _).trans (Mod.quiet_evrGroup m _)

@[simp] theorem Mod.emit_time (m : Mod) (pg code d0 d1 d2 d3 : Nat) : (m.emit pg code d0 d1 d2 d3).time = m.time := by rw [Mod.quiet_emit m pg code d0 d1 d2 d3]; rfl
@[simp] theorem Mod.emit_fuse (m : Mod) (pg code d0 d1 d2 d3 : Nat) : (m.emit pg code d0 d1 d2 d3).fuse = m.fuse := by rw [Mod.quiet_emit m pg code d0 d1 d2 d3]; rfl
@[simp] theorem Mod.emit_modid (m : Mod) (pg code d0 d1 d2 d3 : Nat) : (m.emit pg code d0 d1 d2 d3).modid = m.modid := by rw [Mod.quiet_emit m pg code d0 d1 d2 d3]; rfl
@[simp] theorem Mod.emit_crst (m : Mod) (pg code d0 d1 d2 d3 : Nat) : (m.emit pg code d0 d1 d2 d3).crst = m.crst := by rw [Mod.quiet_emit m pg code d0 d1 d2 d3]; rfl
@[simp] theorem Mod.emit_antiRollback (m : Mod) (pg code d0 d1 d2 d3 : Nat) : (m.emit pg code d0 d1 d2 d3).antiRollback = m.antiRollback := by rw [Mod.quiet_emit m pg code d0 d1 d2 d3]; rfl
@[simp] theorem Mod.emit_fwdOnly (m : Mod) (pg code d0 d1 d2 d3 : Nat) : (m.emit pg code d0 d1 d2 d3).fwdOnly = m.fwdOnly := by rw [Mod.quiet_emit m pg code d0 d1 d2 d3]; rfl
@[simp] theorem Mod.emit_nStacks (m : Mod) (pg code d0 d1 d2 d3 : Nat) : (m.emit pg code d0 d1 d2 d3).nStacks = m.nStacks := by rw [Mod.quiet_emit m pg code d0 d1 d2 d3]; rfl
@[simp] theorem Mod.emit_lmap (m : Mod) (pg code d0 d1 d2 d3 : Nat) : (m.emit pg code d0 d1 d2 d3).lmap = m.lmap := by rw [Mod.quiet_emit m pg code d0 d1 d2 d3]; rfl
@[simp] theorem Mod.emit_engs (m : Mod) (pg code d0 d1 d2 d3 : Nat) : (m.emit pg code d0 d1 d2 d3).engs = m.engs := by rw [Mod.quiet_emit m pg code d0 d1 d2 d3]; rfl
@[simp] theorem Mod.emit_ptGroups (m : Mod) (pg code d0 d1 d2 d3 : Nat) : (m.emit pg code d0 d1 d2 d3).ptGroups = m.ptGroups := by rw [Mod.quiet_emit m pg code d0 d1 d2 d3]; rfl
@[simp] theorem Mod.emit_dsp (m : Mod) (pg code d0 d1 d2 d3 : Nat) : (m.emit pg code d0 d1 d2 d3).dsp = m.dsp := by rw [Mod.quiet_emit m pg code d0 d1 d2 d3]; rfl
@[simp] theorem Mod.emit_ep (m : Mod) (pg code d0 d1 d2 d3 : Nat) : (m.emit pg code d0 d1 d2 d3).ep = m.ep := by rw [Mod.quiet_emit m pg code d0 d1 d2 d3]; rfl
@[simp] theorem Mod.emit_js (m : Mod) (pg code d0 d1 d2 d3 : Nat) : (m.emit pg code d0 d1 d2 d3).js = m.js := by rw [Mod.quiet_emit m pg code d0 d1 d2 d3]; rfl
@[simp] theorem Mod.emit_ts (m : Mod) (pg code d0 d1 d2 d3 : Nat) : (m.emit pg code d0 d1 d2 d3).ts = m.ts := by rw [Mod.quiet_emit m pg code d0 d1 d2 d3]; rfl
@[simp] theorem Mod.emit_clip (m : Mod) (pg code d0 d1 d2 d3 : Nat) : (m.emit pg code d0 d1 d2 d3).clip = m.clip := by rw [Mod.quiet_emit m pg code d0 d1 d2 d3]; rfl
@[simp] theorem Mod.emit_kat (m : Mod) (pg code d0 d1 d2 d3 : Nat) : (m.emit pg code d0 d1 d2 d3).kat = m.kat := by rw [Mod.quiet_emit m pg code d0 d1 d2 d3]; rfl
@[simp] theorem Mod.emit_lg (m : Mod) (pg code d0 d1 d2 d3 : Nat) : (m.emit pg code d0 d1 d2 d3).lg = m.lg := by rw [Mod.quiet_emit m pg code d0 d1 d2 d3]; rfl
@[simp] theorem Mod.emit_sd (m : Mod) (pg code d0 d1 d2 d3 : Nat) : (m.emit pg code d0 d1 d2 d3).sd = m.sd := by rw [Mod.quiet_emit m pg code d0 d1 d2 d3]; rfl
@[simp] theorem Mod.emit_ce (m : Mod) (pg code d0 d1 d2 d3 : Nat) : (m.emit pg code d0 d1 d2 d3).ce = m.ce := by rw [Mod.quiet_emit m pg code d0 d1 d2 d3]; rfl
@[simp] theorem Mod.emit_rt (m : Mod) (pg code d0 d1 d2 d3 : Nat) : (m.emit pg code d0 d1 d2 d3).rt = m.rt := by rw [Mod.quiet_emit m pg code d0 d1 d2 d3]; rfl
@[simp] theorem Mod.emit_ports (m : Mod) (pg code d0 d1 d2 d3 : Nat) : (m.emit pg code d0 d1 d2 d3).ports = m.ports := by rw [Mod.quiet_emit m pg code d0 d1 d2 d3]; rfl
@[simp] theorem Mod.emit_dep (m : Mod) (pg code d0 d1 d2 d3 : Nat) : (m.emit pg code d0 d1 d2 d3).dep = m.dep := by rw [Mod.quiet_emit m pg code d0 d1 d2 d3]; rfl
@[simp] theorem Mod.emit_stks (m : Mod) (pg code d0 d1 d2 d3 : Nat) : (m.emit pg code d0 d1 d2 d3).stks = m.stks := by rw [Mod.quiet_emit m pg code d0 d1 d2 d3]; rfl
@[simp] theorem Mod.emit_mt (m : Mod) (pg code d0 d1 d2 d3 : Nat) : (m.emit pg code d0 d1 d2 d3).mt = m.mt := by rw [Mod.quiet_emit m pg code d0 d1 d2 d3]; rfl
@[simp] theorem Mod.emit_pwr (m : Mod) (pg code d0 d1 d2 d3 : Nat) : (m.emit pg code d0 d1 d2 d3).pwr = m.pwr := by rw [Mod.quiet_emit m pg code d0 d1 d2 d3]; rfl
@[simp] theorem Mod.emit_mem (m : Mod) (pg code d0 d1 d2 d3 : Nat) : (m.emit pg code d0 d1 d2 d3).mem = m.mem := by rw [Mod.quiet_emit m pg code d0 d1 d2 d3]; rfl
@[simp] theorem Mod.emit_poison (m : Mod) (pg code d0 d1 d2 d3 : Nat) : (m.emit pg code d0 d1 d2 d3).poison = m.poison := by rw [Mod.quiet_emit m pg code d0 d1 d2 d3]; rfl
@[simp] theorem Mod.emit_once (m : Mod) (pg code d0 d1 d2 d3 : Nat) : (m.emit pg code d0 d1 d2 d3).once = m.once := by rw [Mod.quiet_emit m pg code d0 d1 d2 d3]; rfl
@[simp] theorem Mod.emit_free (m : Mod) (pg code d0 d1 d2 d3 : Nat) : (m.emit pg code d0 d1 d2 d3).free = m.free := by rw [Mod.quiet_emit m pg code d0 d1 d2 d3]; rfl

@[simp] theorem Mod.msix_time (m : Mod) (v : Nat) : (m.msix v).time = m.time := by rw [Mod.quiet_msix m v]; rfl
@[simp] theorem Mod.msix_fuse (m : Mod) (v : Nat) : (m.msix v).fuse = m.fuse := by rw [Mod.quiet_msix m v]; rfl
@[simp] theorem Mod.msix_modid (m : Mod) (v : Nat) : (m.msix v).modid = m.modid := by rw [Mod.quiet_msix m v]; rfl
@[simp] theorem Mod.msix_crst (m : Mod) (v : Nat) : (m.msix v).crst = m.crst := by rw [Mod.quiet_msix m v]; rfl
@[simp] theorem Mod.msix_antiRollback (m : Mod) (v : Nat) : (m.msix v).antiRollback = m.antiRollback := by rw [Mod.quiet_msix m v]; rfl
@[simp] theorem Mod.msix_fwdOnly (m : Mod) (v : Nat) : (m.msix v).fwdOnly = m.fwdOnly := by rw [Mod.quiet_msix m v]; rfl
@[simp] theorem Mod.msix_nStacks (m : Mod) (v : Nat) : (m.msix v).nStacks = m.nStacks := by rw [Mod.quiet_msix m v]; rfl
@[simp] theorem Mod.msix_lmap (m : Mod) (v : Nat) : (m.msix v).lmap = m.lmap := by rw [Mod.quiet_msix m v]; rfl
@[simp] theorem Mod.msix_engs (m : Mod) (v : Nat) : (m.msix v).engs = m.engs := by rw [Mod.quiet_msix m v]; rfl
@[simp] theorem Mod.msix_ptGroups (m : Mod) (v : Nat) : (m.msix v).ptGroups = m.ptGroups := by rw [Mod.quiet_msix m v]; rfl
@[simp] theorem Mod.msix_dsp (m : Mod) (v : Nat) : (m.msix v).dsp = m.dsp := by rw [Mod.quiet_msix m v]; rfl
@[simp] theorem Mod.msix_ep (m : Mod) (v : Nat) : (m.msix v).ep = m.ep := by rw [Mod.quiet_msix m v]; rfl
@[simp] theorem Mod.msix_js (m : Mod) (v : Nat) : (m.msix v).js = m.js := by rw [Mod.quiet_msix m v]; rfl
@[simp] theorem Mod.msix_ts (m : Mod) (v : Nat) : (m.msix v).ts = m.ts := by rw [Mod.quiet_msix m v]; rfl
@[simp] theorem Mod.msix_clip (m : Mod) (v : Nat) : (m.msix v).clip = m.clip := by rw [Mod.quiet_msix m v]; rfl
@[simp] theorem Mod.msix_kat (m : Mod) (v : Nat) : (m.msix v).kat = m.kat := by rw [Mod.quiet_msix m v]; rfl
@[simp] theorem Mod.msix_lg (m : Mod) (v : Nat) : (m.msix v).lg = m.lg := by rw [Mod.quiet_msix m v]; rfl
@[simp] theorem Mod.msix_sd (m : Mod) (v : Nat) : (m.msix v).sd = m.sd := by rw [Mod.quiet_msix m v]; rfl
@[simp] theorem Mod.msix_ce (m : Mod) (v : Nat) : (m.msix v).ce = m.ce := by rw [Mod.quiet_msix m v]; rfl
@[simp] theorem Mod.msix_rt (m : Mod) (v : Nat) : (m.msix v).rt = m.rt := by rw [Mod.quiet_msix m v]; rfl
@[simp] theorem Mod.msix_ports (m : Mod) (v : Nat) : (m.msix v).ports = m.ports := by rw [Mod.quiet_msix m v]; rfl
@[simp] theorem Mod.msix_dep (m : Mod) (v : Nat) : (m.msix v).dep = m.dep := by rw [Mod.quiet_msix m v]; rfl
@[simp] theorem Mod.msix_stks (m : Mod) (v : Nat) : (m.msix v).stks = m.stks := by rw [Mod.quiet_msix m v]; rfl
@[simp] theorem Mod.msix_mt (m : Mod) (v : Nat) : (m.msix v).mt = m.mt := by rw [Mod.quiet_msix m v]; rfl
@[simp] theorem Mod.msix_pwr (m : Mod) (v : Nat) : (m.msix v).pwr = m.pwr := by rw [Mod.quiet_msix m v]; rfl
@[simp] theorem Mod.msix_mem (m : Mod) (v : Nat) : (m.msix v).mem = m.mem := by rw [Mod.quiet_msix m v]; rfl
@[simp] theorem Mod.msix_poison (m : Mod) (v : Nat) : (m.msix v).poison = m.poison := by rw [Mod.quiet_msix m v]; rfl
@[simp] theorem Mod.msix_once (m : Mod) (v : Nat) : (m.msix v).once = m.once := by rw [Mod.quiet_msix m v]; rfl
@[simp] theorem Mod.msix_free (m : Mod) (v : Nat) : (m.msix v).free = m.free := by rw [Mod.quiet_msix m v]; rfl

@[simp] theorem Mod.pageErr_time (m : Mod) (pg bit code d0 d1 d2 d3 : Nat) : (m.pageErr pg bit code d0 d1 d2 d3).time = m.time := by rw [Mod.quiet_pageErr m pg bit code d0 d1 d2 d3]; rfl
@[simp] theorem Mod.pageErr_fuse (m : Mod) (pg bit code d0 d1 d2 d3 : Nat) : (m.pageErr pg bit code d0 d1 d2 d3).fuse = m.fuse := by rw [Mod.quiet_pageErr m pg bit code d0 d1 d2 d3]; rfl
@[simp] theorem Mod.pageErr_modid (m : Mod) (pg bit code d0 d1 d2 d3 : Nat) : (m.pageErr pg bit code d0 d1 d2 d3).modid = m.modid := by rw [Mod.quiet_pageErr m pg bit code d0 d1 d2 d3]; rfl
@[simp] theorem Mod.pageErr_crst (m : Mod) (pg bit code d0 d1 d2 d3 : Nat) : (m.pageErr pg bit code d0 d1 d2 d3).crst = m.crst := by rw [Mod.quiet_pageErr m pg bit code d0 d1 d2 d3]; rfl
@[simp] theorem Mod.pageErr_antiRollback (m : Mod) (pg bit code d0 d1 d2 d3 : Nat) : (m.pageErr pg bit code d0 d1 d2 d3).antiRollback = m.antiRollback := by rw [Mod.quiet_pageErr m pg bit code d0 d1 d2 d3]; rfl
@[simp] theorem Mod.pageErr_fwdOnly (m : Mod) (pg bit code d0 d1 d2 d3 : Nat) : (m.pageErr pg bit code d0 d1 d2 d3).fwdOnly = m.fwdOnly := by rw [Mod.quiet_pageErr m pg bit code d0 d1 d2 d3]; rfl
@[simp] theorem Mod.pageErr_nStacks (m : Mod) (pg bit code d0 d1 d2 d3 : Nat) : (m.pageErr pg bit code d0 d1 d2 d3).nStacks = m.nStacks := by rw [Mod.quiet_pageErr m pg bit code d0 d1 d2 d3]; rfl
@[simp] theorem Mod.pageErr_lmap (m : Mod) (pg bit code d0 d1 d2 d3 : Nat) : (m.pageErr pg bit code d0 d1 d2 d3).lmap = m.lmap := by rw [Mod.quiet_pageErr m pg bit code d0 d1 d2 d3]; rfl
@[simp] theorem Mod.pageErr_engs (m : Mod) (pg bit code d0 d1 d2 d3 : Nat) : (m.pageErr pg bit code d0 d1 d2 d3).engs = m.engs := by rw [Mod.quiet_pageErr m pg bit code d0 d1 d2 d3]; rfl
@[simp] theorem Mod.pageErr_ptGroups (m : Mod) (pg bit code d0 d1 d2 d3 : Nat) : (m.pageErr pg bit code d0 d1 d2 d3).ptGroups = m.ptGroups := by rw [Mod.quiet_pageErr m pg bit code d0 d1 d2 d3]; rfl
@[simp] theorem Mod.pageErr_dsp (m : Mod) (pg bit code d0 d1 d2 d3 : Nat) : (m.pageErr pg bit code d0 d1 d2 d3).dsp = m.dsp := by rw [Mod.quiet_pageErr m pg bit code d0 d1 d2 d3]; rfl
@[simp] theorem Mod.pageErr_ep (m : Mod) (pg bit code d0 d1 d2 d3 : Nat) : (m.pageErr pg bit code d0 d1 d2 d3).ep = m.ep := by rw [Mod.quiet_pageErr m pg bit code d0 d1 d2 d3]; rfl
@[simp] theorem Mod.pageErr_js (m : Mod) (pg bit code d0 d1 d2 d3 : Nat) : (m.pageErr pg bit code d0 d1 d2 d3).js = m.js := by rw [Mod.quiet_pageErr m pg bit code d0 d1 d2 d3]; rfl
@[simp] theorem Mod.pageErr_ts (m : Mod) (pg bit code d0 d1 d2 d3 : Nat) : (m.pageErr pg bit code d0 d1 d2 d3).ts = m.ts := by rw [Mod.quiet_pageErr m pg bit code d0 d1 d2 d3]; rfl
@[simp] theorem Mod.pageErr_clip (m : Mod) (pg bit code d0 d1 d2 d3 : Nat) : (m.pageErr pg bit code d0 d1 d2 d3).clip = m.clip := by rw [Mod.quiet_pageErr m pg bit code d0 d1 d2 d3]; rfl
@[simp] theorem Mod.pageErr_kat (m : Mod) (pg bit code d0 d1 d2 d3 : Nat) : (m.pageErr pg bit code d0 d1 d2 d3).kat = m.kat := by rw [Mod.quiet_pageErr m pg bit code d0 d1 d2 d3]; rfl
@[simp] theorem Mod.pageErr_lg (m : Mod) (pg bit code d0 d1 d2 d3 : Nat) : (m.pageErr pg bit code d0 d1 d2 d3).lg = m.lg := by rw [Mod.quiet_pageErr m pg bit code d0 d1 d2 d3]; rfl
@[simp] theorem Mod.pageErr_sd (m : Mod) (pg bit code d0 d1 d2 d3 : Nat) : (m.pageErr pg bit code d0 d1 d2 d3).sd = m.sd := by rw [Mod.quiet_pageErr m pg bit code d0 d1 d2 d3]; rfl
@[simp] theorem Mod.pageErr_ce (m : Mod) (pg bit code d0 d1 d2 d3 : Nat) : (m.pageErr pg bit code d0 d1 d2 d3).ce = m.ce := by rw [Mod.quiet_pageErr m pg bit code d0 d1 d2 d3]; rfl
@[simp] theorem Mod.pageErr_rt (m : Mod) (pg bit code d0 d1 d2 d3 : Nat) : (m.pageErr pg bit code d0 d1 d2 d3).rt = m.rt := by rw [Mod.quiet_pageErr m pg bit code d0 d1 d2 d3]; rfl
@[simp] theorem Mod.pageErr_ports (m : Mod) (pg bit code d0 d1 d2 d3 : Nat) : (m.pageErr pg bit code d0 d1 d2 d3).ports = m.ports := by rw [Mod.quiet_pageErr m pg bit code d0 d1 d2 d3]; rfl
@[simp] theorem Mod.pageErr_dep (m : Mod) (pg bit code d0 d1 d2 d3 : Nat) : (m.pageErr pg bit code d0 d1 d2 d3).dep = m.dep := by rw [Mod.quiet_pageErr m pg bit code d0 d1 d2 d3]; rfl
@[simp] theorem Mod.pageErr_stks (m : Mod) (pg bit code d0 d1 d2 d3 : Nat) : (m.pageErr pg bit code d0 d1 d2 d3).stks = m.stks := by rw [Mod.quiet_pageErr m pg bit code d0 d1 d2 d3]; rfl
@[simp] theorem Mod.pageErr_mt (m : Mod) (pg bit code d0 d1 d2 d3 : Nat) : (m.pageErr pg bit code d0 d1 d2 d3).mt = m.mt := by rw [Mod.quiet_pageErr m pg bit code d0 d1 d2 d3]; rfl
@[simp] theorem Mod.pageErr_pwr (m : Mod) (pg bit code d0 d1 d2 d3 : Nat) : (m.pageErr pg bit code d0 d1 d2 d3).pwr = m.pwr := by rw [Mod.quiet_pageErr m pg bit code d0 d1 d2 d3]; rfl
@[simp] theorem Mod.pageErr_mem (m : Mod) (pg bit code d0 d1 d2 d3 : Nat) : (m.pageErr pg bit code d0 d1 d2 d3).mem = m.mem := by rw [Mod.quiet_pageErr m pg bit code d0 d1 d2 d3]; rfl
@[simp] theorem Mod.pageErr_poison (m : Mod) (pg bit code d0 d1 d2 d3 : Nat) : (m.pageErr pg bit code d0 d1 d2 d3).poison = m.poison := by rw [Mod.quiet_pageErr m pg bit code d0 d1 d2 d3]; rfl
@[simp] theorem Mod.pageErr_once (m : Mod) (pg bit code d0 d1 d2 d3 : Nat) : (m.pageErr pg bit code d0 d1 d2 d3).once = m.once := by rw [Mod.quiet_pageErr m pg bit code d0 d1 d2 d3]; rfl
@[simp] theorem Mod.pageErr_free (m : Mod) (pg bit code d0 d1 d2 d3 : Nat) : (m.pageErr pg bit code d0 d1 d2 d3).free = m.free := by rw [Mod.quiet_pageErr m pg bit code d0 d1 d2 d3]; rfl

@[simp] theorem Mod.ignored_time (m : Mod) (pg off v init : Nat) : (m.ignored pg off v init).time = m.time := by rw [Mod.quiet_ignored m pg off v init]; rfl
@[simp] theorem Mod.ignored_fuse (m : Mod) (pg off v init : Nat) : (m.ignored pg off v init).fuse = m.fuse := by rw [Mod.quiet_ignored m pg off v init]; rfl
@[simp] theorem Mod.ignored_modid (m : Mod) (pg off v init : Nat) : (m.ignored pg off v init).modid = m.modid := by rw [Mod.quiet_ignored m pg off v init]; rfl
@[simp] theorem Mod.ignored_crst (m : Mod) (pg off v init : Nat) : (m.ignored pg off v init).crst = m.crst := by rw [Mod.quiet_ignored m pg off v init]; rfl
@[simp] theorem Mod.ignored_antiRollback (m : Mod) (pg off v init : Nat) : (m.ignored pg off v init).antiRollback = m.antiRollback := by rw [Mod.quiet_ignored m pg off v init]; rfl
@[simp] theorem Mod.ignored_fwdOnly (m : Mod) (pg off v init : Nat) : (m.ignored pg off v init).fwdOnly = m.fwdOnly := by rw [Mod.quiet_ignored m pg off v init]; rfl
@[simp] theorem Mod.ignored_nStacks (m : Mod) (pg off v init : Nat) : (m.ignored pg off v init).nStacks = m.nStacks := by rw [Mod.quiet_ignored m pg off v init]; rfl
@[simp] theorem Mod.ignored_lmap (m : Mod) (pg off v init : Nat) : (m.ignored pg off v init).lmap = m.lmap := by rw [Mod.quiet_ignored m pg off v init]; rfl
@[simp] theorem Mod.ignored_engs (m : Mod) (pg off v init : Nat) : (m.ignored pg off v init).engs = m.engs := by rw [Mod.quiet_ignored m pg off v init]; rfl
@[simp] theorem Mod.ignored_ptGroups (m : Mod) (pg off v init : Nat) : (m.ignored pg off v init).ptGroups = m.ptGroups := by rw [Mod.quiet_ignored m pg off v init]; rfl
@[simp] theorem Mod.ignored_dsp (m : Mod) (pg off v init : Nat) : (m.ignored pg off v init).dsp = m.dsp := by rw [Mod.quiet_ignored m pg off v init]; rfl
@[simp] theorem Mod.ignored_ep (m : Mod) (pg off v init : Nat) : (m.ignored pg off v init).ep = m.ep := by rw [Mod.quiet_ignored m pg off v init]; rfl
@[simp] theorem Mod.ignored_js (m : Mod) (pg off v init : Nat) : (m.ignored pg off v init).js = m.js := by rw [Mod.quiet_ignored m pg off v init]; rfl
@[simp] theorem Mod.ignored_ts (m : Mod) (pg off v init : Nat) : (m.ignored pg off v init).ts = m.ts := by rw [Mod.quiet_ignored m pg off v init]; rfl
@[simp] theorem Mod.ignored_clip (m : Mod) (pg off v init : Nat) : (m.ignored pg off v init).clip = m.clip := by rw [Mod.quiet_ignored m pg off v init]; rfl
@[simp] theorem Mod.ignored_kat (m : Mod) (pg off v init : Nat) : (m.ignored pg off v init).kat = m.kat := by rw [Mod.quiet_ignored m pg off v init]; rfl
@[simp] theorem Mod.ignored_lg (m : Mod) (pg off v init : Nat) : (m.ignored pg off v init).lg = m.lg := by rw [Mod.quiet_ignored m pg off v init]; rfl
@[simp] theorem Mod.ignored_sd (m : Mod) (pg off v init : Nat) : (m.ignored pg off v init).sd = m.sd := by rw [Mod.quiet_ignored m pg off v init]; rfl
@[simp] theorem Mod.ignored_ce (m : Mod) (pg off v init : Nat) : (m.ignored pg off v init).ce = m.ce := by rw [Mod.quiet_ignored m pg off v init]; rfl
@[simp] theorem Mod.ignored_rt (m : Mod) (pg off v init : Nat) : (m.ignored pg off v init).rt = m.rt := by rw [Mod.quiet_ignored m pg off v init]; rfl
@[simp] theorem Mod.ignored_ports (m : Mod) (pg off v init : Nat) : (m.ignored pg off v init).ports = m.ports := by rw [Mod.quiet_ignored m pg off v init]; rfl
@[simp] theorem Mod.ignored_dep (m : Mod) (pg off v init : Nat) : (m.ignored pg off v init).dep = m.dep := by rw [Mod.quiet_ignored m pg off v init]; rfl
@[simp] theorem Mod.ignored_stks (m : Mod) (pg off v init : Nat) : (m.ignored pg off v init).stks = m.stks := by rw [Mod.quiet_ignored m pg off v init]; rfl
@[simp] theorem Mod.ignored_mt (m : Mod) (pg off v init : Nat) : (m.ignored pg off v init).mt = m.mt := by rw [Mod.quiet_ignored m pg off v init]; rfl
@[simp] theorem Mod.ignored_pwr (m : Mod) (pg off v init : Nat) : (m.ignored pg off v init).pwr = m.pwr := by rw [Mod.quiet_ignored m pg off v init]; rfl
@[simp] theorem Mod.ignored_mem (m : Mod) (pg off v init : Nat) : (m.ignored pg off v init).mem = m.mem := by rw [Mod.quiet_ignored m pg off v init]; rfl
@[simp] theorem Mod.ignored_poison (m : Mod) (pg off v init : Nat) : (m.ignored pg off v init).poison = m.poison := by rw [Mod.quiet_ignored m pg off v init]; rfl
@[simp] theorem Mod.ignored_once (m : Mod) (pg off v init : Nat) : (m.ignored pg off v init).once = m.once := by rw [Mod.quiet_ignored m pg off v init]; rfl
@[simp] theorem Mod.ignored_free (m : Mod) (pg off v init : Nat) : (m.ignored pg off v init).free = m.free := by rw [Mod.quiet_ignored m pg off v init]; rfl

end Sys2Proof.Machine
end

