-- ==== Sys2Proof/Laws/Outcomes.lean ====
section
/-! SUPPORT. More outcomes of instructions, lists of accesses, tasks, what a kernel's end leaves alone, writes of an active bank and of BAR4, and the two sides of recursive doubling. -/
namespace Sys2Proof.Machine

/-! More outcomes, and lists of accesses -/

/-- A branch whose reserved fields are 0. -/
theorem resOk_of (f : BFmt) (h1 : f.r1 = 0#2) (h2 : f.r2 = 0#6) : resOk f = true := by simp [resOk, h1, h2]

/-- A branch to a target in the bank, and in the body of the innermost loop. -/
theorem settle_jump_ok (s : State) (k : Nat) (off : Int) (t : Nat) (h : ((s.eng k).pc : Int) + off = t) (h1 : t ≤ 8191) (hb : (s.eng k).inBody t) :
    ({ s with core := s.core.settle k (.jump off) } : State) = s.jumped k t := by
  have : (s.core.eng k).branch off = .ok t := by
    unfold Engine.branch
    have h' : ((s.core.eng k).pc : Int) + off = t := h
    simp only [h']
    rw [if_neg (by omega)]
    cases hl : (s.core.eng k).loops with
    | nil => simp
    | cons l r =>
      have := hb l (by simp [State.eng, hl])
      simp only
      rw [if_pos (by simpa using this)]
      simp
  simp only [Mod.settle, this]; rfl

/-- A branch whose target is refused. -/
theorem settle_jump_bad (s : State) (k : Nat) (off : Int) (f : KFault) (hp : s.core.ptPending k = false) (h : (s.eng k).branch off = .error f) :
    ({ s with core := s.core.settle k (.jump off) } : State) = s.faulted k f := by
  have h' : (s.core.eng k).branch off = .error f := h
  simp only [Mod.settle, h', hp]; rfl

theorem regsOk_d (f : RFmt) (h : isS f.d) : regsOk f .s .any .any .any = true := by simpa [regsOk, RKind.ok, isS] using h

theorem regsOk_a (f : RFmt) (h : isS f.a) : regsOk f .any .s .any .any = true := by simpa [regsOk, RKind.ok, isS] using h

theorem penOk_of (f : RFmt) (h : predOk f) : penOk f = true := by
  rcases h with h | ⟨h, h'⟩ <;> simp [penOk, *]

theorem Engine.setV_pc (e : Engine) (r : Nat) (v : List W32) : (e.setV r v).pc = e.pc := rfl

/-- A vector result: the register by the lane rule, the pc and the loops. -/
theorem settle_putV (s : State) (k n : Nat) (h : k < s.core.engs.length) (f : RFmt) (v : Nat → W32) :
    ({ s with core := s.core.settle k (.next (s.core.putV (s.core.iss k n) f v)) } : State) = s.wroteV k f v := by
  simp only [Mod.putV, settle_next_upd _ _ _ h]; rfl

/-- A bit of the vector that a list of bits makes. -/
theorem getLsbD_ofBoolListLE (l : List Bool) (j : Nat) : (BitVec.ofBoolListLE l).getLsbD j = l.getD j false := by
  induction l generalizing j with
  | nil => simp [BitVec.ofBoolListLE]
  | cons a l ih =>
    simp only [BitVec.ofBoolListLE, BitVec.getLsbD_concat]
    cases j with
    | zero => simp
    | succ j => simp [ih]

/-- A predicate result, bit by bit. -/
theorem settle_putP (s : State) (n k : Nat) (f : RFmt) (hk : k < s.core.engs.length) (v : Nat → Bool) : ∃ w : BitVec 128,
    ({ s with core := s.core.settle k (.next (s.core.putP (s.core.iss k n) f v)) } : State) = s.wroteP k f w ∧ ∀ j, j < 128 → w.getLsbD j = (s.eng k).preds f v j := by
  refine ⟨(BitVec.ofBoolListLE ((List.range 128).map (fun i =>
    if (s.core.iss k n).active f i then v i else if f.pz = 1#1 then false else ((s.core.iss k n).e.getP f.d.toNat).getLsbD i))).setWidth 128, ?_, ?_⟩
  · simp only [Mod.putP, settle_next_upd _ _ _ hk]; rfl
  · intro j hj
    simp only [BitVec.getLsbD_setWidth, getLsbD_ofBoolListLE, List.getD_eq_getElem?_getD, List.getElem?_map, List.getElem?_range hj, hj, decide_true, Bool.true_and]
    rfl

/-- Accesses in range and aligned are not refused. -/
theorem spans_none (x : Iss) (l : List Acc) (h : ∀ a ∈ l, a.off + a.n ≤ 2 ^ 22 ∧ a.off % a.align = 0) : x.spans (l.map (fun a => (a.off, a.n, a.align))) = none := by
  unfold Iss.spans
  rw [List.findSome?_eq_none_iff]
  intro y hy
  obtain ⟨a, ha, rfl⟩ := List.mem_map.1 hy
  exact span_ok _ _ _ _ (h a ha).1 (h a ha).2

/-- Accesses that may all be made are made. -/
theorem using_all (s : State) (k n : Nat) (l : List Acc) (h : s.Accepts k n l) (body : Res) : s.core.using (s.core.iss k n) l body = body := by
  unfold Mod.using
  rw [spans_none _ _ h.range]
  simp only
  rw [if_neg]
  · have : s.core.badRead (s.core.iss k n).k ((l.filter (fun a => !a.wr)).map (fun a => (a.off, a.n))) = none := by
      unfold Mod.badRead
      rw [List.findSome?_eq_none_iff]
      intro y hy
      obtain ⟨a, ha, rfl⟩ := List.mem_map.1 hy
      have ha' := List.mem_filter.1 ha
      rcases h.good a ha'.1 with hg | hg
      · simp [hg] at ha'
      · exact hg
    rw [this]
  · simp only [List.any_eq_true, not_exists, not_and]
    intro a ha
    rcases h.ready a ha with hz | hz
    · simp [hz]
    · simp [hz]

/-! Tasks -/

/-- A task that has replaced its older self is found. -/
theorem Mod.task?_setTask (m : Mod) (t : Task) (q i : Nat) (u : Task) (h : m.task? q i = some u) (hq : t.q = u.q) (hi : t.idx = u.idx) : (m.setTask t).task? q i = some t := by
  unfold Mod.task? Mod.setTask at *
  simp only
  have hu := List.find?_some h
  simp at hu
  generalize m.dsp.tasks = l at h
  induction l with
  | nil => simp at h
  | cons a l ih =>
    simp only [List.find?_cons, List.map_cons] at h ⊢
    by_cases ha : a.q = q ∧ a.idx = i
    · simp [ha, hq, hi, hu]
    · have : ¬ (a.q = t.q ∧ a.idx = t.idx) := by rw [hq, hi, hu.1, hu.2]; exact ha
      have h1 : (decide (a.q = q) && decide (a.idx = i)) = false := by simpa using ha
      have h2 : (decide (a.q = t.q) && decide (a.idx = t.idx)) = false := by simpa using this
      simp only [h1] at h
      simp only [h2, Bool.false_eq_true, if_false, h1]
      exact ih h

/-- Looking up a task reads dispatch alone. -/
theorem Mod.task?_dsp (m m' : Mod) (h : m.dsp = m'.dsp) (q i : Nat) : m.task? q i = m'.task? q i := by unfold Mod.task?; rw [h]

/-- The known-answer test at a kernel's end leaves memory, engines, dispatch and the epoch controller. -/
theorem Mod.katEnd_frame (m : Mod) (k : Nat) : (m.katEnd k).mem = m.mem ∧ (m.katEnd k).engs = m.engs ∧ (m.katEnd k).dsp = m.dsp ∧ (m.katEnd k).ep = m.ep ∧ (m.katEnd k).modid = m.modid ∧ (m.katEnd k).lmap = m.lmap ∧ (m.katEnd k).ptGroups = m.ptGroups := by
  unfold Mod.katEnd
  cases m.kat.wait.find? _ with
  | none => simp
  | some x =>
    simp only [Mod.katClose, Mod.katSlot, Mod.katAnswer]
    split <;> split <;> split <;> simp

/-! Instruction banks, BAR4 and recursive doubling -/

/-- A write of instruction words to the active bank is discarded, counts in ENG_IM_IGN and raises IM_ACTIVE_WRITE; every engine keeps its banks (R237). -/
theorem Mod.imLoad_active (m : Mod) (k writer : Nat) (bs : List Nat) (img : Image) :
    m.imLoad k (m.eng k).active writer bs img = (m.bump (pgSlot k) 0x19C 1).emit (pgSlot k) Ev.imActiveWrite (m.eng k).active 0 writer (m.logicalOf k) ∧
    (m.imLoad k (m.eng k).active writer bs img).engs = m.engs := by
  have h : m.imLoad k (m.eng k).active writer bs img = (m.bump (pgSlot k) 0x19C 1).emit (pgSlot k) Ev.imActiveWrite (m.eng k).active 0 writer (m.logicalOf k) := by
    simp [Mod.imLoad]
  exact ⟨h, by rw [h]; simp⟩

/-- A write of BAR4 changes nothing but its table, and keeps the table's form. -/
theorem Mod.bar4Write_frame (m : Mod) (o size v : Nat) (h : spWf 0 m.host.bar4 = true) :
    ∃ b, spWf 0 b = true ∧ m.bar4Write o size v = { m with host := { m.host with bar4 := b } } := by
  unfold Mod.bar4Write
  split
  · exact ⟨m.host.bar4, h, rfl⟩
  · exact ⟨_, spWriteAll_wf _ h, rfl⟩

/-- What one member sends at a level is what the other takes there (R430). -/
theorem dblOut_iff (n x y l : Nat) (hx : x < n) (hy : y < n) : (l, y) ∈ dblOut n x ↔ (l, x) ∈ dblIn n y := by
  have hn : n ≠ 0 := by omega
  have hlt : n < 2 * 2 ^ n.log2 := by have := Nat.lt_log2_self (n := n); rwa [Nat.pow_succ, Nat.mul_comm] at this
  have hxor : ∀ a i, a < 2 ^ n.log2 → i < n.log2 → a ^^^ 2 ^ i < 2 ^ n.log2 :=
    fun a i ha hi => Nat.xor_lt_two_pow ha (Nat.pow_lt_pow_right (by decide) hi)
  have hinv : ∀ a i, (a ^^^ 2 ^ i) ^^^ 2 ^ i = a := fun a i => by rw [Nat.xor_assoc, Nat.xor_self, Nat.xor_zero]
  unfold dblOut dblIn
  generalize n.log2 = p at *
  simp only
  by_cases h1 : 2 ^ p ≤ x
  · by_cases h2 : 2 ^ p ≤ y
    · simp [h1, h2]; omega
    · by_cases h3 : y + 2 ^ p < n
      · simp [h1, h2, h3]
        constructor
        · rintro ⟨rfl, rfl⟩; left; exact ⟨rfl, by omega⟩
        · rintro (⟨rfl, rfl⟩ | ⟨i, hi, rfl, rfl⟩)
          · exact ⟨rfl, by omega⟩
          · exact absurd (hxor y i (by omega) hi) (by omega)
      · simp [h1, h2, h3]
        constructor
        · rintro ⟨rfl, rfl⟩; omega
        · rintro ⟨i, hi, rfl, rfl⟩; exact absurd (hxor y i (by omega) hi) (by omega)
  · by_cases h2 : 2 ^ p ≤ y
    · simp [h1, h2]
      rintro i hi rfl rfl; exact absurd (hxor x i (by omega) hi) (by omega)
    · by_cases h3 : y + 2 ^ p < n
      · simp [h1, h2, h3]
        constructor
        · rintro ⟨i, hi, rfl, rfl⟩; right; exact ⟨i, hi, rfl, hinv x i⟩
        · rintro (⟨rfl, rfl⟩ | ⟨i, hi, rfl, rfl⟩)
          · omega
          · exact ⟨i, hi, rfl, hinv y i⟩
      · simp [h1, h2, h3]
        constructor
        · rintro ⟨i, hi, rfl, rfl⟩; exact ⟨i, hi, rfl, hinv x i⟩
        · rintro ⟨i, hi, rfl, rfl⟩; exact ⟨i, hi, rfl, hinv y i⟩

end Sys2Proof.Machine
end

