-- ==== Sys2Proof/WellFormed.lean ====
section
/-! DEFINITION. Well-formed commands: every number that names a part of the module names one that exists. An ill-formed command is no
command of this module; the model leaves the state unchanged for it. -/
namespace Sys2Proof

/-- A logical engine (R22). -/
def engineOk (n : Nat) : Bool := n < 288

/-- A physical slot of a panel (R23). -/
def slotOk (p s : Nat) : Bool := p < 6 && s < 52

/-- A queue of dispatch (R282). -/
def queueOk (q : Nat) : Bool := q < 8192

/-- A collective context (R405). -/
def ctxOk (c : Nat) : Bool := c < 256

/-- A port of the router (R356). -/
def portOk (i : Nat) : Bool := i < 19

/-- A stack (R551). -/
def stackOk (i : Nat) : Bool := i < 32

/-- A register page number of BAR0 (R547). -/
def pageOk (page : Nat) : Bool := page < 16384

/-- The ranges of a command's operands. -/
def Instr.wf : Instr → Bool
  | .add n _ => engineOk n
  | .sub n _ => engineOk n
  | .and n _ => engineOk n
  | .or n _ => engineOk n
  | .xor n _ => engineOk n
  | .shl n _ => engineOk n
  | .shr n _ => engineOk n
  | .sra n _ => engineOk n
  | .mul n _ => engineOk n
  | .mulhu n _ => engineOk n
  | .min n _ => engineOk n
  | .max n _ => engineOk n
  | .slt n _ => engineOk n
  | .sltu n _ => engineOk n
  | .addi n _ => engineOk n
  | .andi n _ => engineOk n
  | .ori n _ => engineOk n
  | .xori n _ => engineOk n
  | .shli n _ => engineOk n
  | .shri n _ => engineOk n
  | .srai n _ => engineOk n
  | .li n _ => engineOk n
  | .lih n _ => engineOk n
  | .fadd n _ => engineOk n
  | .fsub n _ => engineOk n
  | .fmul n _ => engineOk n
  | .ffma n _ => engineOk n
  | .fmin n _ => engineOk n
  | .fmax n _ => engineOk n
  | .fcvtSi n _ => engineOk n
  | .fcvtIs n _ => engineOk n
  | .ld n _ => engineOk n
  | .ldw n _ => engineOk n
  | .st n _ => engineOk n
  | .stw n _ => engineOk n
  | .br n _ => engineOk n
  | .brf n _ => engineOk n
  | .jmp n _ => engineOk n
  | .loop n _ => engineOk n
  | .loopBrk n _ => engineOk n
  | .rdlc n _ => engineOk n
  | .kend n _ => engineOk n
  | .nop n _ => engineOk n
  | .rdfeat n _ => engineOk n
  | .rdns n _ => engineOk n
  | .setctx n _ => engineOk n
  | .rdctx n _ => engineOk n
  | .shrd n _ => engineOk n
  | .shrdReturn n => engineOk n
  | .shset n _ => engineOk n
  | .rdtime n _ => engineOk n
  | .vaddF n _ => engineOk n
  | .vsubF n _ => engineOk n
  | .vmulF n _ => engineOk n
  | .vfmaF n _ => engineOk n
  | .vminF n _ => engineOk n
  | .vmaxF n _ => engineOk n
  | .vsgnF n _ => engineOk n
  | .vcmpF n _ => engineOk n
  | .vaddI n _ => engineOk n
  | .vsubI n _ => engineOk n
  | .vmulI n _ => engineOk n
  | .vand n _ => engineOk n
  | .vor n _ => engineOk n
  | .vxor n _ => engineOk n
  | .vshlI n _ => engineOk n
  | .vshrI n _ => engineOk n
  | .vcmpI n _ => engineOk n
  | .vsel n _ => engineOk n
  | .vbcast n _ => engineOk n
  | .viota n _ => engineOk n
  | .vget n _ => engineOk n
  | .vput n _ => engineOk n
  | .plog n _ => engineOk n
  | .vld n _ => engineOk n
  | .vst n _ => engineOk n
  | .vldc n _ => engineOk n
  | .vstc n _ => engineOk n
  | .vredAdd n _ => engineOk n
  | .vredMax n _ => engineOk n
  | .vredMin n _ => engineOk n
  | .vredAddi n _ => engineOk n
  | .vredCnt n _ => engineOk n
  | .vcvt n _ => engineOk n
  | .lsum n _ => engineOk n
  | .lsumP n _ => engineOk n
  | .lsumS n _ => engineOk n
  | .lsumI n _ => engineOk n
  | .lscomb n _ => engineOk n
  | .lsclr n _ => engineOk n
  | .lsst n _ => engineOk n
  | .lsld n _ => engineOk n
  | .lsrd n _ => engineOk n
  | .vrand n _ => engineOk n
  | .vrotc n _ => engineOk n
  | .optM2 n _ => engineOk n
  | .optM1 n _ => engineOk n
  | .optSgn n _ => engineOk n
  | .mload n _ => engineOk n
  | .mloadComplete n _ => engineOk n
  | .mma n _ => engineOk n
  | .mmaPassComplete n => engineOk n
  | .mzero n _ => engineOk n
  | .mpre n _ => engineOk n
  | .mdrain n _ _ => engineOk n
  | .mdrainComplete n _ => engineOk n
  | .dmaG n _ => engineOk n
  | .dmaP n _ => engineOk n
  | .dmaW n _ => engineOk n
  | .dmaTransferComplete n _ => engineOk n
  | .evwait n _ => engineOk n
  | .evwaitEnd n => engineOk n
  | .evwaitExpired n => engineOk n
  | .evsig n _ => engineOk n
  | .fence n _ => engineOk n
  | .jpush n _ => engineOk n
  | .jpop n _ => engineOk n
  | .tpush n _ => engineOk n
  | .tpop n _ => engineOk n
  | .panelTreeCombine _ => true
  | .taskRead q => queueOk q
  | .taskReady q _ => queueOk q
  | .taskPlace q _ n => engineOk n && queueOk q
  | .kernelStart n => engineOk n
  | .engineClockStop p s => slotOk p s
  | .taskComplete q _ => queueOk q
  | .queueEnable q => queueOk q
  | .queueDisable q => queueOk q
  | .queueResume q => queueOk q
  | .dspDoorbell q _ => queueOk q
  | .evCmdSet => true
  | .evCmdAdd => true
  | .evValLoRead => true
  | .protectedWrite _ _ _ _ => true
  | .patrolScrub i _ _ _ => stackOk i
  | .stackPhyLoss i _ => stackOk i
  | .seal => true
  | .sealSnap => true
  | .rerun => true
  | .skip => true
  | .resolveCommit => true
  | .resolveRollback => true
  | .abortSnap => true
  | .epContribution => true
  | .votePhase1Complete => true
  | .commit => true
  | .rollback => true
  | .rollbackComplete => true
  | .stepWatchdogExpiry => true
  | .clipRedo => true
  | .snapshotStart => true
  | .snapshotPageDrain => true
  | .snapshotComplete => true
  | .lgShset _ => true
  | .lgHackWrite _ => true
  | .rngKatRun _ => true
  | .reduceScatter c => ctxOk c
  | .allGather c => ctxOk c
  | .allReduce c => ctxOk c
  | .allToAll c => ctxOk c
  | .broadcast c => ctxOk c
  | .send c => ctxOk c
  | .recv c => ctxOk c
  | .permute c => ctxOk c
  | .lsumAll c => ctxOk c
  | .norm c => ctxOk c
  | .collOpComplete c _ => ctxOk c
  | .collTimeout c _ => ctxOk c
  | .contextEnable c => ctxOk c
  | .contextDisable c => ctxOk c
  | .contextResume c => ctxOk c
  | .ceDoorbell c _ => ctxOk c
  | .collData => true
  | .collGrant => true
  | .collReady => true
  | .collAbort => true
  | .collVote => true
  | .collVeto => true
  | .portTrainingStart i => portOk i
  | .lanesLocked i => portOk i
  | .trainingFailure i => portOk i
  | .identityFrame i _ => portOk i
  | .heartbeatSend i => portOk i
  | .heartbeatFrame i => portOk i
  | .heartbeatLoss i => portOk i
  | .laneLockLoss i _ => portOk i
  | .maskFrame i _ => portOk i
  | .packetArrival i _ _ => portOk i
  | .routerRound => true
  | .fabLifeDrop i _ => portOk i
  | .fabGauzeDrop i => portOk i
  | .injectionWaitExpiry _ _ => true
  | .messageComplete _ _ => true
  | .write => true
  | .readReq => true
  | .readData => true
  | .evInc => true
  | .ack => true
  | .mgmt => true
  | .retransmissionTimer _ _ => true
  | .quarantineEnd => true
  | .rtInjectWrite _ => true
  | .routerResetRelease _ _ => true
  | .slotFence p s => slotOk p s
  | .trialEntry p s => slotOk p s
  | .depClassLost i => decide (i < 16)
  | .calTestDue p s => slotOk p s
  | .calTestEnd p s _ _ _ => slotOk p s
  | .calMiss p s => slotOk p s
  | .ctrlParity page _ => pageOk page
  | .depCmdFence p s => slotOk p s
  | .depCmdUnfence p s => slotOk p s
  | .depCmdTestNow p s => slotOk p s
  | .depCmdFwdOnly => true
  | .stkCmdFence i => stackOk i
  | .p48vInRange _ _ => true
  | .p48vLoss => true
  | .pwrInputFault _ => true
  | .powerStageFault _ => true
  | .pwrEnHigh => true
  | .pwrEnLow => true
  | .modResetAssert => true
  | .modResetRelease _ => true
  | .perstNAssert => true
  | .perstNRelease => true
  | .feltResetCompute => true
  | .feltResetRouter => true
  | .feltResetModule _ => true
  | .feltResetCold _ _ => true
  | .feltServiceFrame _ => true
  | .rackTickEdge => true
  | .rackTickLoss => true
  | .clockThrottleStep _ _ _ => true
  | .limiterAdjust _ => true
  | .thermalTrip _ _ => true
  | .mgmtAnnouncement _ _ => true
  | .boardLeaderChoice => true
  | .censusReport _ _ => true
  | .censusWaitExpiry => true
  | .feltTableWrite _ => true
  | .tableBlockMessage _ _ => true
  | .tablesActive => true
  | .pageEnable _ page => pageOk page
  | .pageDisable _ page => pageOk page
  | .pageDisableDone page => pageOk page
  | .pageCommit _ page => pageOk page
  | .pageSoftReset _ page => pageOk page
  | .pageSnap page => pageOk page
  | .pageSnapAll => true
  | .pgErrClear page _ => pageOk page
  | .registerWrite _ page _ _ _ => pageOk page
  | .regTimeout _ page _ _ => pageOk page
  | .mtLoRead => true
  | .hiEvrAck _ => true
  | .bar2Read _ _ => true
  | .bar2Write _ _ => true
  | .functionLevelReset => true
  | .d3hotEntry => true
  | .busMasterDisable => true
  | .hostLinkUp _ _ _ => true
  | .hostLinkDown => true
  | .hostAerUncorr _ _ => true
  | .mctpReadRegister page _ => pageOk page
  | .mctpWriteRegister page _ _ => pageOk page
  | .mctpReadTelemetry => true
  | .mctpReadFeltLog _ => true
  | .mctpWriteFirmware _ _ _ => true
  | .mctpDebugUnlock _ => true
  | .mctpReadCensus => true
  | .timeFrame i _ => portOk i
  | .transitHold i _ => portOk i
  | .busMasterEnable => true
  | .d3hotExit => true
  | .registerRead _ page _ _ => pageOk page
  | .engineClockStart p s => slotOk p s

end Sys2Proof
end

