-- ==== Sys2Proof/Tests/Slice0.lean ====
section
/-! SUPPORT. Tests: well-formedness, instruction words written out from the spec's tables, single steps with results worked out by hand, and for each claim with hypotheses a concrete state that meets them. -/
set_option Elab.async false

namespace Sys2Proof.Tests
open Sys2Proof Sys2Proof.Machine

/-! Well-formedness: one command that each check refuses, beside one that it takes -/

def f0 : RFmt := ⟨1#6, 2#6, 3#6, 3#6, 0#1, 0#3, 0#1, 0#11, 0#16⟩
def i0 : IFmt := ⟨1#6, 2#6, 8#44⟩
def b0 : BFmt := ⟨0#4, 0#2, 0#6, 0#6, 0#6, 0#16, 1#16⟩

theorem test_wf_engine : (Instr.add 288 f0).wf = false ∧ (Instr.add 287 f0).wf = true := by decide
theorem test_wf_slot : (Instr.slotFence 6 0).wf = false ∧ (Instr.slotFence 5 52).wf = false ∧ (Instr.slotFence 5 51).wf = true := by decide
theorem test_wf_queue : (Instr.taskRead 8192).wf = false ∧ (Instr.taskRead 8191).wf = true := by decide
theorem test_wf_place : (Instr.taskPlace 8192 0 0).wf = false ∧ (Instr.taskPlace 0 0 288).wf = false := by decide
theorem test_wf_context : (Instr.send 256).wf = false ∧ (Instr.send 255).wf = true := by decide
theorem test_wf_port : (Instr.heartbeatSend 19).wf = false ∧ (Instr.heartbeatSend 18).wf = true := by decide
theorem test_wf_stack : (Instr.stkCmdFence 32).wf = false ∧ (Instr.stkCmdFence 31).wf = true := by decide
theorem test_wf_page : (Instr.pageEnable 6 16384).wf = false ∧ (Instr.pageEnable 6 16383).wf = true := by decide
theorem test_wf_class : (Instr.depClassLost 16).wf = false ∧ (Instr.depClassLost 15).wf = true := by decide

/-! Instruction words, bit by bit from the encodings of R204 and R213 to R218 -/

/-- ADD s1, s2, s3: opcode 0x01, D 1, A 2, B 3. -/
theorem test_word_add : EngWord.decode 0b00000001_000001_000010_000011_000000_0_000_0_00000000000_0000000000000000#64
    = some (.r 0x01#8 ⟨1#6, 2#6, 3#6, 0#6, 0#1, 0#3, 0#1, 0#11, 0#16⟩) := by decide
/-- ADDI s1, s2, -1: opcode 0x10. -/
theorem test_word_addi : EngWord.decode 0b00010000_000001_000010_11111111111111111111111111111111111111111111#64 = some (.i 0x10#8 ⟨1#6, 2#6, 0xFFFFFFFFFFF#44⟩) := by decide
/-- BR with condition 5, s2, s3, OFF -2: opcode 0x38. -/
theorem test_word_br : EngWord.decode 0b00111000_0101_00_000010_000011_000000_0000000000000000_1111111111111110#64
    = some (.b 0x38#8 ⟨5#4, 0#2, 2#6, 3#6, 0#6, 0#16, 0xFFFE#16⟩) := by decide
/-- VADD.F v5, v6, v7 under p2 with PZ and the rounding code 1: opcode 0x50. -/
theorem test_word_vadd : EngWord.decode 0b01010000_000101_000110_000111_000000_1_010_1_00000000000_0000000000000001#64
    = some (.r 0x50#8 ⟨5#6, 6#6, 7#6, 0#6, 1#1, 2#3, 1#1, 0#11, 1#16⟩) := by decide
/-- MLOAD bank 1, COL, format 9, s2, s3, SMODE 1, STRIDE 2: opcode 0xA0. -/
theorem test_word_mload : EngWord.decode 0b10100000_1_1_1001_000010_000011_001_000000000010_00000000000000000000000#64
    = some (.mload ⟨1#1, 1#1, 9#4, 2#6, 3#6, 1#3, 2#12, 0#23⟩) := by decide
/-- MMA tile 5, bank 1, ROW, M 128, s2, s3, format 2, SMODE 0, STRIDE 4, RLOG 5: opcode 0xA1. -/
theorem test_word_mma : EngWord.decode 0b10100001_101_1_0_1111111_000010_000011_0010_000_000000000100_0101_000000000#64
    = some (.mma ⟨5#3, 1#1, 0#1, 127#7, 2#6, 3#6, 2#4, 0#3, 4#12, 5#4, 0#9⟩) := by decide
/-- MPRE tile 3, float, SEGLEN 2, RMODE 5, LEAF_LOG 1, TREE_LOG 4, s2, s6, PFMT 1, SHAPE 2, PSTRIDE 8: opcode 0xA3. -/
theorem test_word_mpre : EngWord.decode 0b10100011_011_0_010_101_00001_00100_000010_000110_01_10_000000001000_00000000#64
    = some (.mopen true ⟨3#3, 0#1, 2#3, 5#3, 1#5, 4#5, 2#6, 6#6, 1#2, 2#2, 8#12, 0#8⟩) := by decide
/-- MDRAIN tile 6, PT, TAP, LA 3, s9: opcode 0xA4. -/
theorem test_word_mdrain : EngWord.decode 0b10100100_110_1_1_11_001001_0000000000000000000000000000000000000000000#64 = some (.mdrain ⟨6#3, 1#1, 1#1, 3#2, 9#6, 0#43⟩) := by decide
/-- A word of zeros has no listed opcode (R202, R239). -/
theorem test_word_zero : EngWord.decode 0#64 = none := by decide

/-! A module in normal operation -/

def onPage : Page := { enabled := true, cfgOk := true }

/-- A module in normal operation whose slot 0 is e and backs logical engine 0; every page that has an ENABLE is enabled. -/
def labMod (e : Engine) : Mod :=
  { Mod.reset with
    lmap := (List.replicate 288 {}).set 0 { valid := true }
    engs := (List.replicate 312 ({ st := .sleep } : Engine)).set 0 e
    dep := { slots := (List.replicate 312 ({ st := .reserve } : SlotDep)).set 0 { st := .active } }
    nStacks := 32
    stks := (List.range 32).map (fun i => ({ slot := i } : Stack))
    ports := List.replicate 19 { st := .down }
    felt := { running := true, stage := .ready, announced := some 0 }
    mt := { started := true }
    time := 1000000
    pwr := { st := .on }
    pins := { pwrEn := true, modResetN := true, perstN := true, pwrGood := true }
    host := { bme := true }
    rt := { inReset := false }
    pages := (List.range 32).map (fun i => (pgStack i, onPage)) ++ (pgRouter, onPage) :: (List.range 19).map (fun i => (pgPort i, onPage))
      ++ [pgColl, pgDsp, pgEp, pgLog, pgSnap, pgHost, pgCal, pgRng, pgPwr].map (·, onPage) }

def lab (e : Engine) : State := ⟨labMod e, []⟩

/-- An engine that runs a kernel whose first word is w. -/
def probe (w : EngWord) : Engine := { st := .run, im := [[(0, w.encode)], []] }

/-- The bare module changed: what other witnesses start from. -/
def labWith (g : Mod → Mod) : State := ⟨g (labMod { st := .idle }), []⟩

/-- A word that reads back is the next instruction of the engine that holds it. -/
theorem next_of (c : Instr) (w : EngWord) (e : Engine) (hc : c.word = some w) (hr : e.st = .run) (hw : e.wait = .none) (hp : e.pc = 0)
    (ha : e.active = 0) (hi : e.im = [[(0, w.encode)], []]) (hd : EngWord.decode w.encode = some w) : (lab e).Next c 0 0 := by
  have he : (labMod e).eng 0 = e := rfl
  have hs : (labMod e).slotOf 0 = some 0 := rfl
  have hp' : (labMod e).poison = [] := rfl
  refine ⟨⟨hs, ?_, ?_, ?_⟩, ?_, ?_, ?_, ?_⟩
  · show 0 < ((List.replicate 312 ({ st := .sleep } : Engine)).set 0 e).length
    rw [List.length_set, List.length_replicate]; omega
  · exact he ▸ hr
  · exact he ▸ hw
  · show ((labMod e).eng 0).pc ≤ 8191
    rw [he, hp]; decide
  · show (labMod e).poison.contains _ = false
    rw [hp']; rfl
  · show EngWord.decode (((labMod e).eng 0).imWord ((labMod e).eng 0).active ((labMod e).eng 0).pc) = c.word
    rw [he, ha, hp, hc]
    have : e.imWord 0 0 = w.encode := by simp [Engine.imWord, hi, spRead]
    rw [this, hd]
  · rw [hc]; rfl


/-! Every engine instruction is the next one somewhere -/

def fp : RFmt := ⟨1#6, 2#6, 3#6, 0#6, 1#1, 1#3, 0#1, 0#11, 0#16⟩
def j0 : BFmt := ⟨0#4, 0#2, 2#6, 3#6, 0#6, 0#16, 1#16⟩
def ml : MloadFmt := ⟨0#1, 0#1, 3#4, 2#6, 3#6, 0#3, 2#12, 0#23⟩
def mm : MmaFmt := ⟨0#3, 0#1, 0#1, 0#7, 2#6, 3#6, 3#4, 0#3, 2#12, 0#4, 0#9⟩
def mo : MopenFmt := ⟨0#3, 0#1, 0#3, 0#3, 0#5, 0#5, 2#6, 0#6, 0#2, 0#2, 0#12, 0#8⟩
def md : MdrainFmt := ⟨0#3, 0#1, 0#1, 0#2, 2#6, 0#43⟩

def samples1 : List Instr :=
  [.add 0 f0, .sub 0 f0, .and 0 f0, .or 0 f0, .xor 0 f0, .shl 0 f0, .shr 0 f0, .sra 0 f0, .mul 0 f0, .mulhu 0 f0, .min 0 f0, .max 0 f0, .slt 0 f0, .sltu 0 f0,
   .addi 0 i0, .andi 0 i0, .ori 0 i0, .xori 0 i0, .shli 0 i0, .shri 0 i0, .srai 0 i0, .li 0 i0, .lih 0 i0, .fadd 0 f0, .fsub 0 f0, .fmul 0 f0, .ffma 0 f0,
   .fmin 0 f0, .fmax 0 f0, .fcvtSi 0 f0, .fcvtIs 0 f0, .ld 0 i0, .ldw 0 i0, .st 0 i0, .stw 0 i0, .br 0 j0, .brf 0 b0, .jmp 0 b0, .loop 0 j0, .loopBrk 0 j0,
   .rdlc 0 f0, .kend 0 f0, .nop 0 f0, .rdfeat 0 i0, .rdns 0 f0, .setctx 0 f0, .rdctx 0 f0, .shrd 0 f0, .shset 0 f0, .rdtime 0 f0]

def samples2 : List Instr :=
  [.vaddF 0 f0, .vsubF 0 f0, .vmulF 0 f0, .vfmaF 0 f0, .vminF 0 f0, .vmaxF 0 f0, .vsgnF 0 f0, .vcmpF 0 f0, .vaddI 0 f0, .vsubI 0 f0, .vmulI 0 f0, .vand 0 f0,
   .vor 0 f0, .vxor 0 f0, .vshlI 0 f0, .vshrI 0 f0, .vcmpI 0 f0, .vsel 0 fp, .vbcast 0 f0, .viota 0 f0, .vget 0 f0, .vput 0 f0, .plog 0 f0, .vld 0 i0, .vst 0 i0,
   .vldc 0 f0, .vstc 0 f0, .vredAdd 0 f0, .vredMax 0 f0, .vredMin 0 f0, .vredAddi 0 f0, .vredCnt 0 f0, .vcvt 0 f0]

def samples3 : List Instr :=
  [.lsum 0 f0, .lsumP 0 f0, .lsumS 0 f0, .lsumI 0 f0, .lscomb 0 f0, .lsclr 0 f0, .lsst 0 f0, .lsld 0 f0, .lsrd 0 f0, .vrand 0 f0, .vrotc 0 f0, .optM2 0 f0, .optM1 0 f0,
   .optSgn 0 f0, .mload 0 ml, .mma 0 mm, .mzero 0 mo, .mpre 0 mo, .mdrain 0 md none, .dmaG 0 f0, .dmaP 0 f0, .dmaW 0 f0, .evwait 0 f0, .evsig 0 f0, .fence 0 f0,
   .jpush 0 f0, .jpop 0 f0, .tpush 0 f0, .tpop 0 f0]

def samples : List Instr := samples1 ++ samples2 ++ samples3

theorem samples_read_back : samples.all (fun c => match c.word with
    | some w => decide (EngWord.decode w.encode = some w)
    | none => false) = true := by decide

/-- Each instruction is the next one of a running engine that holds nothing else. -/
theorem witness_next : ∀ c ∈ samples, ∃ w, c.word = some w ∧ (lab (probe w)).Next c 0 0 := by
  intro c hc
  have h := List.all_eq_true.1 samples_read_back c hc
  cases hw : c.word with
  | none => simp [hw] at h
  | some w =>
    simp [hw] at h
    exact ⟨w, rfl, next_of c w (probe w) hw rfl rfl rfl rfl rfl h⟩

/-- The same with the registers, tiles or tags that an instruction needs. -/
theorem next_with (c : Instr) (w : EngWord) (g : Engine → Engine) (hc : c.word = some w) (hd : EngWord.decode w.encode = some w)
    (h : ∀ e, (g e).st = e.st ∧ (g e).wait = e.wait ∧ (g e).pc = e.pc ∧ (g e).active = e.active ∧ (g e).im = e.im) : (lab (g (probe w))).Next c 0 0 :=
  next_of c w _ hc ((h _).1.trans rfl) ((h _).2.1.trans rfl) ((h _).2.2.1.trans rfl) ((h _).2.2.2.1.trans rfl) ((h _).2.2.2.2.trans rfl) hd

/-! Hypotheses of the claims that hold together somewhere: engine instructions -/

/-- A running engine whose first word is that of c. -/
def probeOf (c : Instr) : Engine := match c.word with
  | some w => probe w
  | none => {}

/-- The word of c reads back. -/
def readsBack (c : Instr) : Bool := match c.word with
  | some w => decide (EngWord.decode w.encode = some w)
  | none => false

/-- c is the next instruction of a module's engine that differs from the running one only in what an instruction does not need. -/
theorem next_mod (c : Instr) (m : Mod) (h : readsBack c = true) (hs : m.slotOf 0 = some 0) (hl : m.engs.length = 312) (hp : m.poison = [])
    (he : (m.eng 0).st = .run ∧ (m.eng 0).wait = .none ∧ (m.eng 0).pc = 0 ∧ (m.eng 0).active = 0 ∧ (m.eng 0).im = (probeOf c).im) : State.Next ⟨m, []⟩ c 0 0 := by
  obtain ⟨hr, hw, hpc, ha, hi⟩ := he
  cases hc : c.word with
  | none => simp [readsBack, hc] at h
  | some w =>
    simp only [readsBack, hc, decide_eq_true_eq] at h
    have him : (m.eng 0).im = [[(0, w.encode)], []] := by simp [hi, probeOf, hc, probe]
    refine ⟨⟨hs, ?_, hr, hw⟩, ?_, ?_, ?_, ?_⟩
    · show 0 < m.engs.length; omega
    · show (m.eng 0).pc ≤ 8191
      rw [hpc]; decide
    · show m.poison.contains _ = false
      rw [hp]; rfl
    · show EngWord.decode ((m.eng 0).imWord (m.eng 0).active (m.eng 0).pc) = c.word
      rw [ha, hpc, hc]
      have : (m.eng 0).imWord 0 0 = w.encode := by simp [Engine.imWord, him, spRead]
      rw [this, h]
    · rw [hc]; rfl

/-- The running engine of c, changed by g. -/
def labOf (c : Instr) (g : Engine → Engine) : State := lab (g (probeOf c))

theorem lab_length (e : Engine) : (labMod e).engs.length = 312 := by
  show ((List.replicate 312 ({ st := .sleep } : Engine)).set 0 e).length = 312
  rw [List.length_set, List.length_replicate]

theorem next_lab (c : Instr) (g : Engine → Engine) (h : readsBack c = true) (hg : ∀ e, (g e).st = e.st ∧ (g e).wait = e.wait ∧ (g e).pc = e.pc ∧ (g e).active = e.active
    ∧ (g e).im = e.im) : (labOf c g).Next c 0 0 := by
  obtain ⟨h1, h2, h3, h4, h5⟩ := hg (probeOf c)
  have hp : (probeOf c).st = .run ∧ (probeOf c).wait = .none ∧ (probeOf c).pc = 0 ∧ (probeOf c).active = 0 := by
    unfold probeOf
    split
    · exact ⟨rfl, rfl, rfl, rfl⟩
    · rename_i hw
      simp [readsBack, hw] at h
  exact next_mod c (labMod (g (probeOf c))) h rfl (lab_length _) rfl ⟨h1.trans hp.1, h2.trans hp.2.1, h3.trans hp.2.2.1, h4.trans hp.2.2.2, h5⟩

theorem next_plain (c : Instr) (h : readsBack c = true) : (labOf c id).Next c 0 0 := next_lab c id h (fun _ => ⟨rfl, rfl, rfl, rfl, rfl⟩)

theorem lab_no_poison (e : Engine) (a n : Nat) : (labMod e).firstPoison a n = none := by
  have h : (labMod e).stks.any (fun k => k.st = .failed) = false := by rfl
  have hp : (labMod e).poison = [] := rfl
  unfold Mod.firstPoison
  split
  · rfl
  · simp only [hp, List.filter_nil, List.head?_nil, Option.map_none]
    rw [h]; rfl

theorem lab_not_busy (e : Engine) (he : e.jobs = []) (off n : Nat) (w : Bool) : (labMod e).storeBusy ((labMod e).iss 0 0) off n w = false := by
  have h : ((labMod e).iss 0 0).e = e := rfl
  have hg : (labMod e).ptGroups = [] := rfl
  simp [Mod.storeBusy, h, hg, Engine.overlaps, he]

/-- An engine without work in flight may make any access inside its store at once. -/
theorem usable_lab (e : Engine) (he : e.jobs = []) (off len align : Nat) (wr : Bool) (h : off + len ≤ 2 ^ 22) (ha : off % align = 0) : (lab e).Usable 0 0 off len align wr :=
  ⟨h, ha, lab_not_busy e he _ _ _, .inr (lab_no_poison e _ _)⟩

theorem accepts_lab (e : Engine) (he : e.jobs = []) (l : List Acc) (h : ∀ a ∈ l, a.off + a.n ≤ 2 ^ 22 ∧ a.off % a.align = 0) : (lab e).Accepts 0 0 l :=
  ⟨h, fun _ _ => .inr (lab_not_busy e he _ _ _), fun _ _ => .inr (lab_no_poison e _ _)⟩

theorem witness_ScalarArithmetic : namesDABC f0 ∧ namesDAB f0 ∧ immDA i0 ∧ i0.imm.toNat < 64 ∧ ∀ c ∈ samples, ∃ w, c.word = some w ∧ (lab (probe w)).Next c 0 0 :=
  ⟨by decide, by decide, by decide, by decide, witness_next⟩

def fbad : RFmt := ⟨1#6, 32#6, 3#6, 32#6, 0#1, 0#3, 0#1, 0#11, 0#16⟩

theorem witness_ScalarRegisters : (labOf (.add 0 fbad) id).core.ptPending 0 = false ∧ ¬ namesDAB fbad ∧ ¬ namesDABC fbad ∧ ¬ namesDA fbad
    ∧ (labOf (.add 0 fbad) id).Next (.add 0 fbad) 0 0 ∧ (labOf (.ffma 0 fbad) id).Next (.ffma 0 fbad) 0 0 ∧ (labOf (.fcvtSi 0 fbad) id).Next (.fcvtSi 0 fbad) 0 0 :=
  ⟨by decide, by decide, by decide, by decide, next_plain _ (by decide), next_plain _ (by decide), next_plain _ (by decide)⟩

theorem witness_ScalarRegisters_zero : namesDAB (⟨0#6, 2#6, 0#6, 0#6, 0#1, 0#3, 0#1, 0#11, 0#16⟩ : RFmt)
    ∧ (labOf (.add 0 ⟨0#6, 2#6, 0#6, 0#6, 0#1, 0#3, 0#1, 0#11, 0#16⟩) id).Next (.add 0 ⟨0#6, 2#6, 0#6, 0#6, 0#1, 0#3, 0#1, 0#11, 0#16⟩) 0 0
    ∧ (labOf (.add 0 ⟨31#6, 2#6, 0#6, 0#6, 0#1, 0#3, 0#1, 0#11, 0#16⟩) id).Next (.add 0 ⟨31#6, 2#6, 0#6, 0#6, 0#1, 0#3, 0#1, 0#11, 0#16⟩) 0 0 :=
  ⟨by decide, next_plain _ (by decide), next_plain _ (by decide)⟩

theorem witness_ScalarRegisters_fields : (let e : Engine := {}; 31 < e.s.length ∧ 63 < e.v.length ∧ 7 < e.p.length ∧ 3 < e.la.length ∧ 7 < e.acc.length
    ∧ 15 < e.tags.length ∧ 1 < e.sb.length) := by decide

/-- The last aligned doubleword and word of the store. -/
def iTop : IFmt := ⟨1#6, 2#6, 4194296#44⟩
def iTop4 : IFmt := ⟨1#6, 2#6, 4194300#44⟩

theorem witness_ScalarMemory : immDA iTop ∧ immDA iTop4 ∧ (labOf (.st 0 iTop) id).memWf
    ∧ (labOf (.ld 0 iTop) id).Usable 0 0 4194296 8 8 false ∧ (labOf (.ld 0 iTop) id).Next (.ld 0 iTop) 0 0
    ∧ (labOf (.ldw 0 iTop4) id).Usable 0 0 4194300 4 4 false ∧ (labOf (.ldw 0 iTop4) id).Next (.ldw 0 iTop4) 0 0
    ∧ (labOf (.st 0 iTop) id).Usable 0 0 4194296 8 8 true ∧ (labOf (.st 0 iTop) id).Next (.st 0 iTop) 0 0
    ∧ (labOf (.stw 0 iTop4) id).Usable 0 0 4194300 4 4 true ∧ (labOf (.stw 0 iTop4) id).Next (.stw 0 iTop4) 0 0 :=
  ⟨by decide, by decide, rfl, usable_lab _ rfl _ _ _ _ (by decide) (by decide), next_plain _ (by decide),
    usable_lab _ rfl _ _ _ _ (by decide) (by decide), next_plain _ (by decide),
    usable_lab _ rfl _ _ _ _ (by decide) (by decide), next_plain _ (by decide),
    usable_lab _ rfl _ _ _ _ (by decide) (by decide), next_plain _ (by decide)⟩

theorem witness_ScalarMemory_offsets : ((((labOf (.ld 0 iTop) id).eng 0).getS iTop.a.toNat + iTop.imm.signExtend 64).toNat = 4194296)
    ∧ ((((labOf (.ldw 0 iTop4) id).eng 0).getS iTop4.a.toNat + iTop4.imm.signExtend 64).toNat = 4194300) := by decide

/-- One byte past the store, and one inside it that is not aligned. -/
theorem witness_ScalarAccessFaults : ∀ i ∈ [(⟨1#6, 2#6, 4194304#44⟩ : IFmt), ⟨1#6, 2#6, 4194293#44⟩], immDA i ∧ (labOf (.ld 0 i) id).core.ptPending 0 = false
    ∧ (labOf (.ld 0 i) id).Next (.ld 0 i) 0 0 ∧ (labOf (.ldw 0 i) id).Next (.ldw 0 i) 0 0 ∧ (labOf (.st 0 i) id).Next (.st 0 i) 0 0 ∧ (labOf (.stw 0 i) id).Next (.stw 0 i) 0 0 := by
  intro i hi
  simp only [List.mem_cons, List.not_mem_nil, or_false] at hi
  rcases hi with rfl | rfl <;>
    exact ⟨by decide, by decide, next_plain _ (by decide), next_plain _ (by decide), next_plain _ (by decide), next_plain _ (by decide)⟩

def jTo (off : BitVec 16) : BFmt := ⟨0#4, 0#2, 0#6, 0#6, 0#6, 0#16, off⟩
def inLoop (e : Engine) : Engine := { e with loops := [⟨0, 5, 2, 0⟩] }
theorem inLoop_ok (e : Engine) : (inLoop e).st = e.st ∧ (inLoop e).wait = e.wait ∧ (inLoop e).pc = e.pc ∧ (inLoop e).active = e.active ∧ (inLoop e).im = e.im :=
  ⟨rfl, rfl, rfl, rfl, rfl⟩

/-- A jump to the last word of the bank, one beyond it, and one out of a loop's body by one word. -/
theorem witness_Branches : (labOf (.br 0 j0) id).Next (.br 0 j0) 0 0 ∧ (labOf (.brf 0 b0) id).Next (.brf 0 b0) 0 0
    ∧ (labOf (.brf 0 b0) id).core.statPending ((labOf (.brf 0 b0) id).core.iss 0 0) = false
    ∧ (labOf (.jmp 0 (jTo 8191#16)) id).Next (.jmp 0 (jTo 8191#16)) 0 0 ∧ (((labOf (.jmp 0 (jTo 8191#16)) id).eng 0).pc : Int) + (jTo 8191#16).off.toInt = (8191 : Nat)
    ∧ ((labOf (.jmp 0 (jTo 8191#16)) id).eng 0).loops = []
    ∧ (labOf (.jmp 0 (jTo 8192#16)) id).Next (.jmp 0 (jTo 8192#16)) 0 0 ∧ 8191 < (((labOf (.jmp 0 (jTo 8192#16)) id).eng 0).pc : Int) + (jTo 8192#16).off.toInt
    ∧ (labOf (.jmp 0 (jTo 6#16)) inLoop).Next (.jmp 0 (jTo 6#16)) 0 0 ∧ ((labOf (.jmp 0 (jTo 6#16)) inLoop).eng 0).loops.head? = some ⟨0, 5, 2, 0⟩
    ∧ (labOf (.jmp 0 (jTo 6#16)) inLoop).core.ptPending 0 = false :=
  ⟨next_plain _ (by decide), next_plain _ (by decide), by decide, next_plain _ (by decide), by decide, rfl, next_plain _ (by decide), by decide,
    next_lab _ _ (by decide) inLoop_ok, rfl, by decide⟩

def atLast (l : List HwLoop) (e : Engine) : Engine := { e with loops := l }
theorem atLast_ok (l : List HwLoop) (e : Engine) : (atLast l e).st = e.st ∧ (atLast l e).wait = e.wait ∧ (atLast l e).pc = e.pc ∧ (atLast l e).active = e.active ∧ (atLast l e).im = e.im :=
  ⟨rfl, rfl, rfl, rfl, rfl⟩

theorem witness_Loops : (labOf (.loop 0 j0) id).Next (.loop 0 j0) 0 0 ∧ j0.off.toInt = (1 : Nat) ∧ ((labOf (.loop 0 j0) id).eng 0).pc + 1 ≤ 8191
    ∧ ((labOf (.loop 0 j0) id).eng 0).loops = []
    ∧ (labOf (.loopBrk 0 j0) inLoop).Next (.loopBrk 0 j0) 0 0 ∧ (labOf (.rdlc 0 f0) inLoop).Next (.rdlc 0 f0) 0 0
    ∧ (∀ l ∈ [[⟨0, 0, 2, 0⟩], [⟨0, 0, 2, 1⟩], [⟨0, 0, 2, 1⟩, ⟨0, 0, 2, 0⟩], [⟨0, 1, 2, 0⟩]], (labOf (.nop 0 f0) (atLast l)).Next (.nop 0 f0) 0 0 ∧ ((labOf (.nop 0 f0) (atLast l)).eng 0).loops = l) :=
  ⟨next_plain _ (by decide), by decide, by decide, rfl, next_lab _ _ (by decide) inLoop_ok, next_lab _ _ (by decide) inLoop_ok,
    fun l _ => ⟨next_lab _ _ (by decide) (atLast_ok l), rfl⟩⟩

theorem witness_StatusReads : (∀ c ∈ [Instr.nop 0 f0, .rdfeat 0 ⟨1#6, 0#6, 4095#44⟩, .rdns 0 f0, .setctx 0 f0, .rdctx 0 f0, .rdtime 0 f0], (labOf c id).Next c 0 0)
    ∧ (labOf (.rdns 0 f0) id).core.statPending ((labOf (.rdns 0 f0) id).core.iss 0 0) = false ∧ (((labOf (.setctx 0 f0) id).eng 0).getS f0.b.toNat).toNat < 2 ^ 44 := by
  refine ⟨?_, by decide, by decide⟩
  intro c hc
  simp only [List.mem_cons, List.not_mem_nil, or_false] at hc
  rcases hc with rfl | rfl | rfl | rfl | rfl | rfl <;> exact next_plain _ (by decide)

/-- The module with an open step. -/
def opened (c : Instr) (g : Engine → Engine) : State := ⟨{ labMod (g (probeOf c)) with ep := { st := .opened } }, []⟩

theorem next_opened (c : Instr) (h : readsBack c = true) : (opened c id).Next c 0 0 :=
  let n := next_plain c h
  ⟨⟨n.1.1, n.1.2, n.1.3, n.1.4⟩, n.2, n.3, n.4, n.5⟩

theorem witness_StepHealth : (labOf (.shrd 0 f0) id).Next (.shrd 0 f0) 0 0 ∧ (labOf (.shrd 0 f0) id).core.ep.step = ((labOf (.shrd 0 f0) id).eng 0).ctx.step
    ∧ (lab { probe default with wait := .sh 1 0 (some 5) }).core.slotOf 0 = some 0 ∧ ((lab { probe default with wait := .sh 1 0 (some 5) }).eng 0).wait = .sh 1 0 (some 5)
    ∧ (opened (.shset 0 f0) id).Next (.shset 0 f0) 0 0 ∧ (opened (.shset 0 f0) id).core.ep.isOpen = true ∧ (opened (.shset 0 f0) id).core.ep.contributed = false :=
  ⟨next_plain _ (by decide), rfl, rfl, rfl, next_opened _ (by decide), rfl, rfl⟩

theorem witness_KernelEnd : (labOf (.kend 0 f0) id).Next (.kend 0 f0) 0 0 ∧ ((labOf (.kend 0 f0) id).eng 0).jobs = [] ∧ (labOf (.kend 0 f0) id).core.ptGroups = []
    ∧ ((labOf (.kend 0 f0) id).eng 0).moving = false ∧ ((labOf (.kend 0 f0) id).eng 0).remotes = 0 ∧ ((labOf (.kend 0 f0) id).eng 0).remoteRefused = none
    ∧ (∀ t ∈ ((labOf (.kend 0 f0) id).eng 0).tags, t.fault = false) :=
  ⟨next_plain _ (by decide), rfl, rfl, by decide, rfl, rfl, by decide⟩

theorem witness_KernelFault : 0 < (labOf (.nop 0 f0) id).core.engs.length ∧ ((labOf (.nop 0 f0) id).eng 0).st = .run ∧ ((labOf (.nop 0 f0) id).eng 0).jobs = []
    ∧ (labOf (.nop 0 f0) id).core.ptGroups = [] ∧ ((labOf (.nop 0 f0) id).eng 0).task = none :=
  ⟨by rw [show (labOf (.nop 0 f0) id).core.engs.length = 312 from lab_length _]; omega, rfl, rfl, rfl, rfl⟩

/-- Lane instructions without a predicate, and under one with PZ. -/
theorem witness_VectorFloat : predOk f0 ∧ predOk fp ∧ (labOf (.vaddF 0 fp) id).Next (.vaddF 0 fp) 0 0 ∧ (labOf (.vfmaF 0 f0) id).Next (.vfmaF 0 f0) 0 0 ∧ f0.mod.toNat % 8 = 0 ∧ f0.func.toNat = 0 :=
  ⟨by decide, by decide, next_plain _ (by decide), next_plain _ (by decide), by decide, by decide⟩
theorem witness_VectorInteger : predOk fp ∧ (labOf (.vshrI 0 fp) id).Next (.vshrI 0 fp) 0 0 ∧ fp.func.getLsbD 0 = false := ⟨by decide, next_plain _ (by decide), by decide⟩
theorem witness_VectorPredicates : predOk fp ∧ isP fp.d ∧ isP fp.a ∧ isP fp.b ∧ fp.func.toNat = 0 ∧ ∀ c ∈ [Instr.vcmpF 0 fp, .vcmpI 0 fp, .plog 0 fp], (labOf c id).Next c 0 0 := by
  refine ⟨by decide, by decide, by decide, by decide, by decide, ?_⟩
  intro c hc
  simp only [List.mem_cons, List.not_mem_nil, or_false] at hc
  rcases hc with rfl | rfl | rfl <;> exact next_plain _ (by decide)
theorem witness_VectorMoves : fp.pen = 1#1 ∧ fp.pz = 0#1 ∧ isS fp.a ∧ isS fp.d ∧ predOk fp ∧ (labOf (.vsel 0 fp) id).Next (.vsel 0 fp) 0 0 ∧ (labOf (.vput 0 fp) id).Next (.vput 0 fp) 0 0 :=
  ⟨by decide, by decide, by decide, by decide, by decide, next_plain _ (by decide), next_plain _ (by decide)⟩
theorem witness_VectorReductions : predOk fp ∧ isS fp.d ∧ fp.func.toNat = 0 ∧ (labOf (.vredAdd 0 fp) id).Next (.vredAdd 0 fp) 0 0 ∧ (labOf (.vredCnt 0 fp) id).Next (.vredCnt 0 fp) 0 0 :=
  ⟨by decide, by decide, by decide, next_plain _ (by decide), next_plain _ (by decide)⟩

def vTop : IFmt := ⟨1#6, 2#6, 4193792#44⟩
/-- D 1, A 2, C 0 and a MOD field. -/
def fm (mod : BitVec 16) : RFmt := ⟨1#6, 2#6, 3#6, 0#6, 0#1, 0#3, 0#1, 0#11, mod⟩

theorem witness_VectorLoads : (((labOf (.vld 0 vTop) id).eng 0).getS vTop.a.toNat + vTop.imm.signExtend 64).toNat = 4193792
    ∧ (labOf (.vld 0 vTop) id).Usable 0 0 4193792 512 64 false ∧ (labOf (.vld 0 vTop) id).Next (.vld 0 vTop) 0 0
    ∧ (labOf (.vst 0 vTop) id).Usable 0 0 4193792 512 64 true ∧ (labOf (.vst 0 vTop) id).memWf ∧ (labOf (.vst 0 vTop) id).Next (.vst 0 vTop) 0 0
    ∧ Fmt.ofCode ((fm 0x403#16).mod.toNat % 16) ((fm 0x403#16).mod.getLsbD 4) = some .zf8 ∧ smodeAllowed .zf8 ((fm 0x403#16).mod.toNat / 2 ^ 10 % 8) = true
    ∧ (labOf (.vldc 0 (fm 0x403#16)) id).Accepts 0 0 ({ off := 0, n := Fmt.zf8.bytes 128, align := 64 } :: scaleAcc 1 0 false) ∧ (labOf (.vldc 0 (fm 0x403#16)) id).Next (.vldc 0 (fm 0x403#16)) 0 0 :=
  ⟨by decide, usable_lab _ rfl _ _ _ _ (by decide) (by decide), next_plain _ (by decide), usable_lab _ rfl _ _ _ _ (by decide) (by decide), rfl,
    next_plain _ (by decide), by decide, by decide, accepts_lab _ rfl _ (by decide), next_plain _ (by decide)⟩

/-- D 0 and C 0: no record; an array at 2 and no scale. -/
def fs (mod : BitVec 16) : RFmt := ⟨0#6, 2#6, 3#6, 0#6, 0#1, 0#3, 0#1, 0#11, mod⟩

theorem witness_VectorConversions : convKind .b32 .zf8 = some .rounding ∧ convMode .zf8 0 false = some .rne ∧ smodeAllowed .zf8 0 = true
    ∧ Fmt.ofCode ((fs 0x3#16).mod.toNat % 16) ((fs 0x3#16).mod.getLsbD 4) = some .zf8 ∧ (labOf (.vstc 0 (fs 0x3#16)) id).memWf
    ∧ (labOf (.vstc 0 (fs 0x3#16)) id).Accepts 0 0 [{ off := 0, n := Fmt.zf8.bytes 128, align := 64, wr := true }] ∧ (labOf (.vstc 0 (fs 0x3#16)) id).Next (.vstc 0 (fs 0x3#16)) 0 0
    ∧ vcvtKind .b32 .zf16 = some .rounding ∧ convMode .zf16 0 false = some .rne ∧ Fmt.ofCode ((fs 0x2#16).mod.toNat / 2 ^ 12 % 16) ((fs 0x2#16).mod.getLsbD 10) = some .b32
    ∧ vcvtKind .zf16 .b32 = some .exact ∧ (labOf (.vcvt 0 (fs 0x2#16)) id).Accepts 0 0 [] ∧ (labOf (.vcvt 0 (fs 0x2#16)) id).Next (.vcvt 0 (fs 0x2#16)) 0 0 :=
  ⟨rfl, by decide, by decide, by decide, rfl, accepts_lab _ rfl _ (by decide), next_plain _ (by decide), rfl, by decide, by decide, rfl, accepts_lab _ rfl _ (by decide), next_plain _ (by decide)⟩

theorem witness_LongSums : predOk f0 ∧ isLa f0.d ∧ isLa f0.a ∧ isS f0.a ∧ (labOf (.lsst 0 f0) id).memWf ∧ (labOf (.lsst 0 f0) id).core.laBusy ((labOf (.lsst 0 f0) id).core.iss 0 0) 1 = false
    ∧ (labOf (.lsst 0 f0) id).Usable 0 0 0 96 32 true ∧ ∀ c ∈ [Instr.lsum 0 f0, .lsumP 0 f0, .lsumS 0 f0, .lsumI 0 f0, .lscomb 0 f0, .lsclr 0 f0, .lsst 0 f0, .lsld 0 f0], (labOf c id).Next c 0 0 := by
  refine ⟨by decide, by decide, by decide, by decide, rfl, by decide, usable_lab _ rfl _ _ _ _ (by decide) (by decide), ?_⟩
  intro c hc
  simp only [List.mem_cons, List.not_mem_nil, or_false] at hc
  rcases hc with rfl | rfl | rfl | rfl | rfl | rfl | rfl | rfl <;> exact next_plain _ (by decide)

theorem witness_LongSumOrder : List.Perm [Val.zero, Val.inf true] [Val.inf true, Val.zero] ∧ ({} : LongAcc).n ≤ 2 ^ 63 ∧ (({} : LongAcc).n = 2 ^ 63 → ({} : LongAcc).ovf = true)
    ∧ wrap640 ({} : LongAcc).v = ({} : LongAcc).v :=
  ⟨List.Perm.swap _ _ _, by decide, by decide, by decide +kernel⟩

theorem witness_LongSumOrder_full : ({ n := 2 ^ 63, ovf := true } : LongAcc).n ≤ 2 ^ 63 ∧ wrap640 ({ n := 2 ^ 63, ovf := true } : LongAcc).v = 0 :=
  ⟨by decide, by decide +kernel⟩

def fr : RFmt := ⟨1#6, 2#6, 3#6, 0#6, 0#1, 0#3, 0#1, 0#11, 2#16⟩
theorem witness_LongSumReadout : predOk fr ∧ isS fr.d ∧ isLa fr.a ∧ isS fr.c ∧ Fmt.ofCode (fr.mod.toNat % 16) false = some .zf16 ∧ RMode.ofCode (fr.mod.toNat / 2 ^ 7 % 8) = some .rne
    ∧ (labOf (.lsrd 0 fr) id).core.laBusy ((labOf (.lsrd 0 fr) id).core.iss 0 0) 2 = false ∧ (labOf (.lsrd 0 fr) id).memWf ∧ (labOf (.lsrd 0 fr) id).Accepts 0 0 []
    ∧ (labOf (.lsrd 0 fr) id).Next (.lsrd 0 fr) 0 0 :=
  ⟨by decide, by decide, by decide, by decide, rfl, rfl, by decide, rfl, accepts_lab _ rfl _ (by decide), next_plain _ (by decide)⟩

/-- RLOG 8, binary32 rows at distance 8 × 64 bytes. -/
def frot : RFmt := ⟨1#6, 2#6, 3#6, 0#6, 0#1, 0#3, 0#1, 8#11, 8#16⟩
theorem witness_RandomAndRotation : predOk f0 ∧ (labOf (.vrand 0 f0) id).core.on pgRng = true ∧ ((labOf (.vrand 0 f0) id).eng 0).ctx.ebase + 127 < 2 ^ 44 ∧ (labOf (.vrand 0 f0) id).Next (.vrand 0 f0) 0 0
    ∧ predOk frot ∧ Fmt.ofCode (frot.mod.toNat / 2 ^ 4 % 16) false = some .b32 ∧ RMode.ofCode (frot.mod.toNat / 2 ^ 8 % 8) = some .rne ∧ frot.mod.toNat % 16 = 8
    ∧ (((labOf (.vrotc 0 frot) id).eng 0).getS frot.d.toNat).toNat % 2 ^ 8 = 0 ∧ (labOf (.vrotc 0 frot) id).Next (.vrotc 0 frot) 0 0 :=
  ⟨by decide, by decide, by decide, next_plain _ (by decide), by decide, rfl, rfl, by decide, by decide, next_plain _ (by decide)⟩
theorem witness_RandomAndRotation_rows (wr : Bool) :
    (labOf (.vrotc 0 frot) id).Accepts 0 0 ((List.range (2 ^ 8)).map (fun r => ({ off := r * 512, n := 512, align := 64, wr } : Acc))) := by
  refine accepts_lab _ rfl _ fun a ha => ?_
  obtain ⟨r, hr, rfl⟩ := List.mem_map.1 ha
  have := List.mem_range.1 hr
  dsimp only
  omega

/-! The same for a module changed by h -/

def modOf (c : Instr) (g : Engine → Engine) (h : Mod → Mod) : State := ⟨h (labMod (g (probeOf c))), []⟩

theorem no_poison_mod (m : Mod) (hp : m.poison = []) (hs : m.stks.any (fun k => k.st = .failed) = false) (a n : Nat) : m.firstPoison a n = none := by
  unfold Mod.firstPoison
  split
  · rfl
  · simp only [hp, List.filter_nil, List.head?_nil, Option.map_none]
    rw [hs]; rfl

theorem not_busy_mod (m : Mod) (hg : m.ptGroups = []) (he : (m.eng 0).jobs = []) (off n : Nat) (w : Bool) : m.storeBusy (m.iss 0 0) off n w = false := by
  simp [Mod.storeBusy, Mod.iss, hg, Engine.overlaps, he]

theorem accepts_mod (m : Mod) (hp : m.poison = []) (hs : m.stks.any (fun k => k.st = .failed) = false) (hg : m.ptGroups = []) (he : (m.eng 0).jobs = []) (l : List Acc)
    (h : ∀ a ∈ l, a.off + a.n ≤ 2 ^ 22 ∧ a.off % a.align = 0) : State.Accepts ⟨m, []⟩ 0 0 l :=
  ⟨h, fun _ _ => .inr (not_busy_mod m hg he _ _ _), fun _ _ => .inr (no_poison_mod m hp hs _ _)⟩

theorem usable_mod (m : Mod) (hp : m.poison = []) (hs : m.stks.any (fun k => k.st = .failed) = false) (hg : m.ptGroups = []) (he : (m.eng 0).jobs = [])
    (off len align : Nat) (wr : Bool) (h : off + len ≤ 2 ^ 22) (ha : off % align = 0) : State.Usable ⟨m, []⟩ 0 0 off len align wr :=
  ⟨h, ha, not_busy_mod m hg he _ _ _, .inr (no_poison_mod m hp hs _ _)⟩

/-- Bytes of the engine store of slot 0. -/
def putStore (l : List (Nat × Byte)) (m : Mod) : Mod := { m with mem := l.map (fun x => (esAddr 0 x.1, x.2)) }

/-- An OPT descriptor of one row: ROW scaling of MOM1 and WORK, no record; with CSRC in the second. -/
def optBytes (csrc : Bool) : List (Nat × Byte) := [(0, 1#8), (56, 2#8), (57, 2#8)] ++ (if csrc then [(60, 1#8)] else []) ++ [(107, 0x80#8)]

def optLab (csrc : Bool) : State := modOf (.optSgn 0 f0) id (putStore (optBytes csrc))

theorem witness_OptimiserRuns (csrc : Bool) :
    let b := (List.range 128).map (fun i => (optLab csrc).byte (esAddr 0 i))
    (((optLab csrc).eng 0).getS f0.a.toNat).toNat = 0 ∧ (optLab csrc).memWf ∧ (optLab csrc).Usable 0 0 0 128 64 false ∧ optDescBad .sgn b = none ∧ (OptDesc.ofBytes b).smodeG ≠ 7
    ∧ (∀ o ∈ optOuts .sgn (OptDesc.ofBytes b), o.smode ≠ 3 ∧ o.mode ≠ .sr) ∧ (optLab csrc).Accepts 0 0 (optAccs .sgn (OptDesc.ofBytes b)) ∧ (optLab csrc).Next (.optSgn 0 f0) 0 0
    ∧ (optLab csrc).core.clipUse (OptDesc.ofBytes b) 0 = (if csrc then .val (Val.ofInt 1) else .val (OptDesc.ofBytes b).clip) := by
  cases csrc <;>
    exact ⟨by decide, by unfold State.memWf; decide, usable_mod _ rfl rfl rfl rfl _ _ _ _ (by decide) (by decide), by decide, by decide, by decide,
      accepts_mod _ rfl rfl rfl rfl _ (by decide), next_mod _ _ (by decide) rfl (lab_length _) rfl ⟨rfl, rfl, rfl, rfl, rfl⟩, rfl⟩

/-- CLIP_MODE 1 before the factor of the step is known: the instruction waits. -/
theorem witness_OptimiserRuns_waits :
    let s := modOf (.optSgn 0 f0) id (fun m => { putStore (optBytes true) m with regs := [(pgEp * 4096 + 0x900, 1)] })
    s.core.clipUse (OptDesc.ofBytes ((List.range 128).map (fun i => s.byte (esAddr 0 i)))) 0 = .wait ∧ s.Next (.optSgn 0 f0) 0 0 :=
  ⟨by decide, next_mod _ _ (by decide) rfl (lab_length _) rfl ⟨rfl, rfl, rfl, rfl, rfl⟩⟩

def mpre0 : MopenFmt := ⟨7#3, 0#1, 6#3, 5#3, 3#5, 16#5, 2#6, 4#6, 2#2, 2#2, 4095#12, 0#8⟩

/-- A preload with the largest SEGLEN, LEAF_LOG and TREE_LOG, and RMODE 5. -/
theorem witness_TilesOpen : mo.rsv = 0#8 ∧ mo.pr = 0#6 ∧ mo.pfmt = 0#2 ∧ mo.shape = 0#2 ∧ mo.pstride = 0#12 ∧ (labOf (.mzero 0 mo) id).Next (.mzero 0 mo) 0 0
    ∧ ((labOf (.mzero 0 mo) id).eng 0).mmaOn 0 = false ∧ (((labOf (.mzero 0 mo) id).eng 0).getS 3).toNat < 2 ^ 54
    ∧ mpre0.pfmt.toNat = 2 ∧ mpre0.leafLog.toNat ≤ mpre0.treeLog.toNat ∧ 0 + 2 ^ mpre0.leafLog.toNat * 2 ^ mpre0.seglen.toNat < 2 ^ 22 - 1
    ∧ ((labOf (.mpre 0 mpre0) id).eng 0).mmaOn mpre0.t.toNat = false ∧ (labOf (.mpre 0 mpre0) id).Next (.mpre 0 mpre0) 0 0 :=
  ⟨by decide, by decide, by decide, by decide, by decide, next_plain _ (by decide), by decide, by decide, by decide, by decide, by decide, by decide, next_plain _ (by decide)⟩

theorem witness_BankLoads : ml.rsv = 0#23 ∧ ml.stride ≠ 0#12 ∧ Fmt.ofCode ml.fmt.toNat false = some .zf8 ∧ Fmt.zf8.operand = true ∧ ml.smode.toNat ≠ 7 ∧ ml.ori ≠ 1#1
    ∧ (labOf (.mload 0 ml) id).Accepts 0 0 (blockAccs ⟨false, .zf8, 0, 2, 0, 0#64⟩ (bankDepth .zf8) 128) ∧ (labOf (.mload 0 ml) id).Next (.mload 0 ml) 0 0 :=
  ⟨by decide, by decide, rfl, rfl, by decide, by decide, accepts_lab _ rfl _ (by decide +kernel), next_plain _ (by decide)⟩
theorem witness_BankLoads_end : (lab { probe default with jobs := [.mload ⟨1, {}⟩] }).core.slotOf 0 = some 0 ∧ mloadOf [.mload ⟨1, {}⟩] 1 = some ⟨1, {}⟩ ∧ bankHeld [.mload ⟨1, {}⟩] 1 = false := by decide

def t0 : Tile := { int := false, seglen := 0, rmode := .rne, leafLog := 0, treeLog := 0, chunkBase := 0, opid := 0, step := 0, ebase := 0, erow := 0 }
/-- Tile 0 open with room for two chunks, bank 0 full. -/
def forMma (e : Engine) : Engine := { e with acc := some { t0 with leafLog := 1 } :: List.replicate 7 none, sb := [{ fmt := some .zf8 }, {}] }
theorem forMma_ok (e : Engine) : (forMma e).st = e.st ∧ (forMma e).wait = e.wait ∧ (forMma e).pc = e.pc ∧ (forMma e).active = e.active ∧ (forMma e).im = e.im := ⟨rfl, rfl, rfl, rfl, rfl⟩
theorem witness_ArrayPasses : mm.rsv = 0#9 ∧ mm.stride ≠ 0#12 ∧ mm.rlog.toNat = 0 ∧ Fmt.ofCode mm.fmt.toNat false = some .zf8 ∧ ((labOf (.mma 0 mm) forMma).eng 0).getTile 0 = some { t0 with leafLog := 1 }
    ∧ (((labOf (.mma 0 mm) forMma).eng 0).sb.getD 0 {}).fmt = some .zf8 ∧ (pairing .zf8 .zf8).map (·.2) = some false ∧ 0 + bankDepth .zf8 / 128 ≤ 2 ^ 1 * 2 ^ 0
    ∧ mloadOf ((labOf (.mma 0 mm) forMma).eng 0).jobs 0 = none ∧ (labOf (.mma 0 mm) forMma).Accepts 0 0 (blockAccs ⟨false, .zf8, 0, 2, 0, 0#64⟩ 1 (bankDepth .zf8))
    ∧ (labOf (.mma 0 mm) forMma).Next (.mma 0 mm) 0 0 :=
  ⟨by decide, by decide, by decide, rfl, rfl, rfl, rfl, by decide, rfl, accepts_lab _ rfl _ (by decide), next_lab _ _ (by decide) forMma_ok⟩
theorem witness_ArrayPasses_end : firstMma [.mma ⟨0, 0, 0, 0, []⟩] = some ⟨0, 0, 0, 0, []⟩ ∧ ((lab { forMma (probe default) with jobs := [.mma ⟨0, 0, 0, 0, []⟩] }).eng 0).getTile 0 = some { t0 with leafLog := 1 } := ⟨by decide, rfl⟩

theorem witness_IntegerDotProduct : ∃ (j : MmaJob) (b : Bank) (t : Tile) (x y : Nat → Nat → Int), t.int = true ∧ j.rlog = 0 ∧ b.fmt = some .i8 ∧ t.rows = []
    ∧ (∀ r, j.rows.getD r [] = if r < j.rows.length then (List.range (bankDepth .i8)).map (fun i => Val.ofInt (x r i)) else [])
    ∧ ∀ c, c < 128 → b.cols.getD c [] = (List.range (bankDepth .i8)).map (fun i => Val.ofInt (y c i)) := by
  refine ⟨⟨0, 0, 0, 0, [(List.range (bankDepth .i8)).map (fun _ => Val.ofInt (-128))]⟩, ⟨some .i8, 0, List.replicate 128 ((List.range (bankDepth .i8)).map (fun _ => Val.ofInt (-128))), [], []⟩,
    { t0 with int := true }, fun _ _ => -128, fun _ _ => -128, rfl, rfl, rfl, rfl, ?_, ?_⟩
  · intro r
    cases r with
    | zero => rfl
    | succ r => simp
  · intro c hc
    rw [List.getD_eq_getElem?_getD, List.getElem?_replicate, if_pos hc]; rfl

theorem witness_SubtreeRoot : t0.seglen = 0 ∧ ({ t0 with leafLog := 3 } : Tile).leafLog ≤ 16 ∧ [Val.zero, Val.inf false, Val.zero].length ≤ 2 ^ ({ t0 with leafLog := 3 } : Tile).leafLog := by decide

/-- A drain descriptor: binary32 rows at distance 8 × 64 bytes from 0, no record. -/
def drainBytes : List (Nat × Byte) := [(4, 8#8), (51, 0x80#8)]
def withTile (t : Tile) (e : Engine) : Engine := { e with acc := some t :: List.replicate 7 none }
def drainLab : State := modOf (.mdrain 0 md none) (withTile t0) (putStore drainBytes)
def drainB : List Nat := (List.range 64).map (fun i => drainLab.byte (esAddr 0 (0 + i)))
def drainP : DrainPlan := ⟨0, DrainDesc.ofBytes drainB, .b32, .rne, 0, t0, none, none⟩

theorem witness_TileDrains : md.rsv = 0#43 ∧ md.pt = 0#1 ∧ isS md.a ∧ (drainLab.eng 0).getTile 0 = some t0 ∧ (drainLab.eng 0).mmaOn 0 = false ∧ drainLab.memWf ∧ drainLab.Usable 0 0 0 64 64 false
    ∧ drainPlan (drainLab.core.iss 0 0) 0 drainB 0 t0 none none = .ok drainP ∧ drainP.d.fn = 0 ∧ drainP.d.rlog = 0 ∧ drainP.d.smode = 0 ∧ drainP.d.save = 0 ∧ drainP.d.smooth = false
    ∧ drainP.d.gpop = false ∧ drainP.d.savePush = false ∧ (drainP.d.ocol + 128) * 4 ≤ drainP.d.ostride * 64 ∧ drainLab.Accepts 0 0 ((preAccs t0 ++ (Option.map preAccs none).getD []) ++ drainP.accs)
    ∧ (∀ c ∈ drainLab.core.dep.cls, c = none) ∧ drainLab.Next (.mdrain 0 md none) 0 0 :=
  ⟨by decide, by decide, by decide, rfl, by decide, by unfold State.memWf; decide, usable_mod _ rfl rfl rfl rfl _ _ _ _ (by decide) (by decide), rfl, by decide, by decide, by decide, by decide, by decide,
    by decide, by decide, by decide, accepts_mod _ rfl rfl rfl rfl _ (by decide +kernel), by decide, next_mod _ _ (by decide) rfl (lab_length _) rfl ⟨rfl, rfl, rfl, rfl, rfl⟩⟩

def drainJob : DrainJob := { tile := 0, writes := [(0, 1)], record := {}, recOff := some 4194272, ovr := false, seed := false, tap := some 3, taps := [], pieces := [], seq := 0 }
def draining : Engine := { probe default with jobs := [.drain drainJob] }
theorem witness_DrainCompletes : (lab draining).core.slotOf 0 = some 0 ∧ (lab draining).memWf
    ∧ draining.jobs.findSome? (fun x => match x with | .drain d => some d | _ => none) = some drainJob ∧ (∀ w ∈ drainJob.writes, w.1 < 2 ^ 22) ∧ (∀ o, drainJob.recOff = some o → o + 32 ≤ 2 ^ 22) :=
  ⟨rfl, rfl, rfl, by decide, fun o h => by cases h; decide⟩

def ptDrain : MdrainFmt := ⟨0#3, 1#1, 0#1, 0#2, 2#6, 0#43⟩
def oneEngine : Task := { q := 0, idx := 0, desc := { pmask := 1, imask := 1 }, ready := true, placed := [0], begun := [0] }
def ptTile : Tile := { t0 with chunkBase := 1, treeLog := 1 }
def ptLab : State := modOf (.mdrain 0 ptDrain none) (fun e => { withTile ptTile e with task := some (0, 0) }) (fun m => { putStore drainBytes m with dsp := { m.dsp with tasks := [oneEngine] } })
def ptLead : PtPart := { slot := 0, eng := 0, tile := t0, pair := none, desc := drainB, tap := none, at' := 0, pc := 0, seq := 1, ctx := {} }
def ptFull : State := ⟨{ ptLab.core with ptGroups := [⟨(0, 0), 0, 0, 0, [ptLead]⟩] }, []⟩

theorem witness_PanelTree : ptDrain.rsv = 0#43 ∧ ptDrain.pt = 1#1 ∧ (ptLab.eng 0).getTile 0 = some ptTile ∧ (ptLab.eng 0).mmaOn 0 = false ∧ ptLab.Usable 0 0 0 64 64 false
    ∧ (DrainDesc.ofBytes ((List.range 64).map (fun i => ptLab.byte (esAddr 0 i)))).rlog ≠ 8 ∧ 2 ^ ptTile.seglen ≤ ptTile.chunkBase ∧ (ptLab.eng 0).task = some (0, 0) ∧ ptLab.core.task? 0 0 = some oneEngine
    ∧ (oneEngine.inPanel 0).length ≤ 32 ∧ ptLab.core.ptGroups = [] ∧ ptLab.Next (.mdrain 0 ptDrain none) 0 0
    ∧ ptFull.core.ptWhole ⟨(0, 0), 0, 0, 0, [ptLead]⟩ = true ∧ leadPart (groupAligned [t0] || [t0].any (·.int)) (sortParts [ptLead]) = some ptLead
    ∧ drainPlan { ptFull.core.iss 0 0 with e := { ptFull.eng 0 with pc := 0 } } 0 drainB 0 t0 none none = .ok drainP ∧ ptFull.memWf ∧ State.Accepts ⟨ptLab.core, []⟩ 0 0 drainP.accs :=
  ⟨by decide, by decide, rfl, by decide, usable_mod _ rfl rfl rfl rfl _ _ _ _ (by decide) (by decide), by decide, by decide, rfl, rfl, by decide, rfl,
    next_mod _ _ (by decide) rfl (lab_length _) rfl ⟨rfl, rfl, rfl, rfl, rfl⟩, by decide, by decide, rfl, by unfold State.memWf; decide, accepts_mod _ rfl rfl rfl rfl _ (by decide +kernel)⟩
theorem witness_PanelTree_parts : ([Val.zero, Val.inf false] : List Val).length = 2 ^ ptTile.treeLog ∧ ptTile.leafLog = 0 ∧ ptTile.seglen = 0 := by decide

/-! Transfers, counters, pieces -/

/-- A range of backed module memory without an uncorrectable word loads as it stands. -/
theorem load_of (m : Mod) (i : Init) (a n : Nat) (h : m.firstBad i (pageFuel n) a n = none) (ha : a < 0x28000000000 ∧ a < m.memTop) (hp : m.firstPoison a n = none) :
    m.load i a n = (m, .ok (m.bytesAt a n)) := by
  have hr : regionOf a = .mem := by unfold regionOf; simp [ha.1]
  simp only [Mod.load, h, Mod.access, hr, ha.2, if_true, hp]

theorem noTails_of (s : State) (hq : s.core.dsp.queues = []) (hc : s.core.ce.ctxs = []) : s.NoTails :=
  And.intro (by rw [hq]; intro x hx; cases hx) (by rw [hc]; intro x hx; cases hx)

/-- Scalar registers 2, 3 and 4. -/
def regs3 (a b c : W64) (e : Engine) : Engine := { e with s := [0#64, 0#64, a, b, c] ++ List.replicate 27 0#64 }
theorem regs3_ok (a b c : W64) (e : Engine) : (regs3 a b c e).st = e.st ∧ (regs3 a b c e).wait = e.wait ∧ (regs3 a b c e).pc = e.pc ∧ (regs3 a b c e).active = e.active
    ∧ (regs3 a b c e).im = e.im := ⟨rfl, rfl, rfl, rfl, rfl⟩
def fx : RFmt := ⟨15#6, 2#6, 3#6, 4#6, 0#1, 0#3, 0#1, 0#11, 0#16⟩
def fxPeek : RFmt := ⟨15#6, 2#6, 3#6, 4#6, 0#1, 0#3, 0#1, 0x80#11, 0#16⟩

/-- The last 64 bytes of the store, to and from this module and module 1; a length of 0. -/
theorem witness_TransfersStart (ga len : W64) : fx.d.toNat < 16 ∧ namesABC fx ∧ ((labOf (.dmaG 0 fx) (regs3 4194240#64 ga len)).eng 0).getTag fx.d.toNat = {}
    ∧ (labOf (.dmaG 0 fx) (regs3 4194240#64 ga len)).Next (.dmaG 0 fx) 0 0 ∧ (labOf (.dmaP 0 fx) (regs3 4194240#64 ga len)).Next (.dmaP 0 fx) 0 0
    ∧ (labOf (.dmaW 0 fx) id).Next (.dmaW 0 fx) 0 0 ∧ (labOf (.dmaP 0 fx) (regs3 4194240#64 ga len)).core.firstPoison (esAddr 0 4194240) 64 = none
    ∧ (labOf (.dmaP 0 fx) (regs3 4194240#64 ga len)).core.modid = 0 :=
  ⟨by decide, by decide, rfl, next_lab _ _ (by decide) (regs3_ok _ _ _), next_lab _ _ (by decide) (regs3_ok _ _ _), next_plain _ (by decide), lab_no_poison _ _ _, rfl⟩
theorem witness_TransfersStart_places : (4194240#64).toNat + (64#64).toNat ≤ 2 ^ 22 ∧ (0x100000000000#64).toNat / 2 ^ 44 = 1 ∧ (0x100000000000#64).toNat < 2 ^ 60 := by decide

def moving (y : Xfer) : State := lab { probe default with tags := List.replicate 15 {} ++ [{ xfer := some y }] }
def getX : Xfer := { kind := .get, off := 4194240, addr := 64, len := 64 }

theorem witness_TransfersEnd (y : Xfer) : (moving y).core.slotOf 0 = some 0 ∧ 0 < (moving y).core.engs.length ∧ (moving y).memWf ∧ ((moving y).eng 0).getTag 15 = { xfer := some y } :=
  ⟨rfl, by rw [show (moving y).core.engs.length = 312 from lab_length _]; omega, rfl, rfl⟩
theorem witness_TransfersEnd_get : (moving getX).core.load (.engine 0) 64 64 = ((moving getX).core, .ok ((moving getX).core.bytesAt 64 64)) ∧ (∀ b ∈ (moving getX).core.bytesAt 64 64, b < 256)
    ∧ (∀ i ∈ (moving getX).core.stks, i.st ≠ .failed) := ⟨load_of _ _ _ _ (by decide +kernel) (by decide +kernel) (lab_no_poison _ _ _), by decide +kernel, by decide +kernel⟩
/-- The first address that is not backed, 32 stacks of 80 GiB from 0. -/
theorem witness_TransfersEnd_refused : ((moving getX).core.load (.engine 0) 0x28000000000 64).2 = .refused 0x28000000000 Ev.addrUnbacked := by decide +kernel
theorem witness_TransfersEnd_put : ((moving getX).core.store (.engine 0) 64 ((List.range 64).map (fun i => (moving getX).byte (esAddr 0 4194240 + i))) false).2 = none := by decide +kernel
theorem witness_TransfersEnd_poison : (moving getX).core.firstPoison (esAddr 0 4194240) 64 = none := lab_no_poison _ _ _

/-- Every sparse map of a module that starts from the laboratory's is in its canonical form. -/
theorem lab_wf (e : Engine) : (lab e).Wf := ⟨rfl, rfl, rfl, rfl, by show spWf {} (labMod {}).pages = true; decide, rfl, rfl, by exact List.Pairwise.nil, by intro x hx; cases hx⟩

def idleLab (c : Instr) (a b : W64) : State := labOf c (regs3 a b 0#64)
theorem witness_EventWaits (a b : W64) : (idleLab (.evwait 0 f0) a b).Wf ∧ (idleLab (.evwait 0 f0) a b).Next (.evwait 0 f0) 0 0 ∧ (idleLab (.evsig 0 f0) a b).Next (.evsig 0 f0) 0 0
    ∧ ((idleLab (.evsig 0 f0) a b).eng 0).jobs = [] ∧ (idleLab (.evsig 0 f0) a b).core.ptPending 0 = false ∧ ((idleLab (.evsig 0 f0) a b).eng 0).moving = false ∧ (idleLab (.evsig 0 f0) a b).NoTails
    ∧ (labOf (.fence 0 f0) id).Next (.fence 0 f0) 0 0 ∧ (∀ i, i < 16 → (((labOf (.fence 0 f0) id).eng 0).getTag i).fault = false) :=
  ⟨lab_wf _, next_lab _ _ (by decide) (regs3_ok _ _ _), next_lab _ _ (by decide) (regs3_ok _ _ _), rfl, by rfl, by rfl, noTails_of _ rfl rfl,
    next_plain _ (by decide), by decide⟩
/-- The counter at its threshold, one below it, and a remote increment of the largest and smallest amount to module 1. -/
theorem witness_EventWaits_values : (0#64).toNat ≤ (idleLab (.evwait 0 f0) 0xFFFF#64 0#64).core.ctr 0xFFFF ∧ (idleLab (.evwait 0 f0) 0xFFFF#64 1#64).core.ctr 0xFFFF < (1#64).toNat
    ∧ bitAt (0x100010000#64).toNat 32 = true ∧ (0x100010000#64).toNat / 2 ^ 16 % 2 ^ 16 ≠ (idleLab (.evsig 0 f0) 0x100010000#64 1#64).core.modid ∧ (0xFFFFFF#64).toNat < 2 ^ 24 := by decide
theorem witness_EventWaits_end (t : Nat) : (lab { probe default with wait := .ev 5 t }).core.slotOf 0 = some 0 ∧ ((lab { probe default with wait := .ev 5 t }).eng 0).wait = .ev 5 t
    ∧ (labWith (fun m => { m with regs := [(pgDsp * 4096 + 0x10C, 1)] })).core.reg pgDsp 0x10C ≠ 0 := ⟨rfl, rfl, by decide⟩

/-- The Jersey stack with 11 pages, one of them for data. -/
def withStack (c : Instr) (chain : List Chain) : State := modOf c (regs3 0#64 16#64 64#64) (fun m => { m with regs := [(pgEp * 4096 + 0x808, 11)], js := { chains := chain, next := 2 } })
def onePiece : Piece := { id := 1, tag := 16, len := 64, kind := 0, fallback := false, byDrain := false, step := 0, pos := 0, ready := true }
def oneChain : List Chain := [⟨0, 0, 0, [10], [onePiece]⟩]

theorem witness_Pieces : fx.d.toNat < 16 ∧ namesABC fx ∧ ((withStack (.jpush 0 fx) []).eng 0).getTag 15 = {} ∧ ((withStack (.jpush 0 fx) []).core.jt false).chainOf 0 16 = ⟨0, 0, 0, [], []⟩
    ∧ (withStack (.jpush 0 fx) []).core.jtRoom false 0 16 64 = true ∧ (withStack (.jpush 0 fx) []).Next (.jpush 0 fx) 0 0
    ∧ ((withStack (.jpop 0 fx) oneChain).core.jt false).chainOf 0 16 = ⟨0, 0, 0, [10], [onePiece]⟩ ∧ (withStack (.jpop 0 fx) oneChain).Next (.jpop 0 fx) 0 0
    ∧ fx.func.getLsbD 7 = false ∧ fxPeek.func.getLsbD 7 = true ∧ (withStack (.jpop 0 fxPeek) oneChain).Next (.jpop 0 fxPeek) 0 0 ∧ [onePiece].find? (fun q => q.tag = 16) = some onePiece :=
  ⟨by decide, by decide, rfl, by decide, by decide, next_mod _ _ (by decide) rfl (lab_length _) rfl ⟨rfl, rfl, rfl, rfl, rfl⟩, by decide,
    next_mod _ _ (by decide) rfl (lab_length _) rfl ⟨rfl, rfl, rfl, rfl, rfl⟩, by decide, by decide, next_mod _ _ (by decide) rfl (lab_length _) rfl ⟨rfl, rfl, rfl, rfl, rfl⟩, by decide⟩

/-! Dispatch -/

/-- The host may command a page of the laboratory. -/
theorem acts_of (m : Mod) (pg : Nat) (h : m.host.d3 = false) (hr : m.reachable pg = true) (hs : m.shadow pg = false) (he : (m.page pg).enabled = true) (hb : (m.page pg).busy = false) :
    State.Acts ⟨m, []⟩ pg := ⟨⟨h, hr, hs⟩, he, hb⟩

/-- A queue table with one good entry at 0, and with a bad one (RLOG 0). -/
def putMem (l : List (Nat × Byte)) (m : Mod) : Mod := { m with mem := l }
def goodEntry : List (Nat × Byte) := [(1, 0x10#8), (5, 0x40#8), (9, 0x20#8)]
def queued (x : Queue) (tasks : List Task) : State := labWith (fun m => { m with dsp := { m.dsp with queues := [(0, x)], tasks } })

theorem witness_QueueCommands (mem : List (Nat × Byte)) : (labWith (putMem mem)).Acts pgDsp ∧ ((labWith (putMem mem)).core.queue 0).state = .disabled :=
  ⟨acts_of _ _ rfl rfl rfl rfl rfl, rfl⟩
theorem witness_QueueCommands_enable : (labWith (putMem goodEntry)).core.load .dispatch 0 64 = ((labWith (putMem goodEntry)).core, .ok ((labWith (putMem goodEntry)).core.bytesAt 0 64))
    ∧ (labWith (putMem goodEntry)).core.qtBad ((labWith (putMem goodEntry)).core.bytesAt 0 64) = none ∧ (labWith id).core.qtBad (List.replicate 64 0) = some 0 :=
  ⟨load_of _ _ _ _ (by decide +kernel) (by decide +kernel) (no_poison_mod _ rfl rfl _ _), by decide +kernel, by decide +kernel⟩
theorem witness_QueueCommands_states (st : QState) (tasks : List Task) : (queued { state := st, tail := 1 } tasks).Acts pgDsp ∧ (queued { state := st, tail := 1 } tasks).core.queue 0 = { state := st, tail := 1 } :=
  ⟨acts_of _ _ rfl rfl rfl rfl rfl, by simp [queued, labWith, Mod.queue, spRead]⟩
theorem queued_wf (x : Queue) (tasks : List Task) (h : x ≠ {}) : (queued x tasks).Wf :=
  ⟨rfl, by show spWf {} [(0, x)] = true; simp [spWf, spWfFrom, h], rfl, rfl, by show spWf {} (labMod {}).pages = true; decide, rfl, rfl, by exact List.Pairwise.nil, by intro x hx; cases hx⟩

theorem witness_EventCounters : (labWith id).Acts pgDsp ∧ (labWith id).Wf ∧ (labWith id).NoTails ∧ (∀ u ∈ (labWith id).core.dsp.tasks, u.ready = true) :=
  ⟨acts_of _ _ rfl (by decide) (by decide) (by decide) (by decide), lab_wf _, noTails_of _ rfl rfl, by intro x hx; cases hx⟩

/-- An ACTIVE queue with one descriptor: one word of code, logical engine 0. -/
def reading (bytes : List (Nat × Byte)) : State := labWith (fun m => { putMem bytes m with dsp := { m.dsp with queues := [(0, { ring := 4096, rlog := 4, cring := 8192, tail := 1, state := .active })] } })
def goodTask : List (Nat × Byte) := [(4100, 1#8), (4120, 1#8), (4122, 1#8)]
def afterRead (bytes : List (Nat × Byte)) : Mod := (reading bytes).core.setQueue 0 { (reading bytes).core.queue 0 with head := 1 }

theorem witness_TasksRead : (reading goodTask).core.on pgDsp = true ∧ ((reading goodTask).core.queue 0).state = .active ∧ covered ((reading goodTask).core.queue 0).head ((reading goodTask).core.queue 0).tail = true ∧ covered 5 4 = false
    ∧ (reading goodTask).core.mayRead 0 = true ∧ taskDescBad ((afterRead goodTask).bytesAt 4096 128) = none
    ∧ (∀ n ∈ (TaskDesc.ofBytes ((afterRead goodTask).bytesAt 4096 128)).engines, ((reading goodTask).core.slotOf n).isSome) ∧ taskDescBad ((afterRead []).bytesAt 4096 128) = some 4 := by decide +kernel
theorem witness_TasksRead_load : (afterRead goodTask).load .dispatch 4096 128 = (afterRead goodTask, .ok ((afterRead goodTask).bytesAt 4096 128)) :=
  load_of _ _ _ _ (by decide +kernel) (by decide +kernel) (no_poison_mod _ (by rfl) (by rfl) _ _)

def waitingTask : Task := { q := 0, idx := 0, desc := { kid := 1, klen := 1, pmask := 1, imask := 1, waits := [(3, 1)] } }
def readyTask : Task := { q := 0, idx := 0, desc := { klen := 1, pmask := 1, imask := 1 }, ready := true }
theorem witness_TasksRead_ready : (queued { state := .active } [{ waitingTask with desc := { waitingTask.desc with waits := [] } }]).core.task? 0 0 = some { waitingTask with desc := { waitingTask.desc with waits := [] } }
    ∧ (queued { state := .active } [waitingTask]).core.task? 0 0 = some waitingTask ∧ (∃ w ∈ waitingTask.desc.waits, (queued { state := .active } [waitingTask]).core.ctr w.1 < w.2) :=
  ⟨rfl, rfl, (3, 1), by decide, by decide⟩

theorem lab_noBoundary (m : Mod) (h : m.dep.slots = (List.replicate 312 ({ st := .reserve } : SlotDep)).set 0 { st := .active }) : State.NoBoundary ⟨m, []⟩ := by
  intro d hd
  rw [show State.core ⟨m, []⟩ = m from rfl, h] at hd
  rcases List.mem_or_eq_of_mem_set hd with hd | rfl
  · rw [List.eq_of_mem_replicate hd]; decide
  · decide

theorem witness_KernelsStart : (queued { state := .active } [readyTask]).core.slotOf 0 = some 0 ∧ (queued { state := .active } [readyTask]).core.dspRuns = true ∧ (queued { state := .active } [readyTask]).core.logicalOf 0 = 0
    ∧ (queued { state := .active } [readyTask]).NoBoundary ∧ (queued { state := .active } [readyTask]).core.couldTake readyTask 0 = true ∧ (queued { state := .active } [readyTask]).core.engFree 0 = true
    ∧ (∀ v ∈ (queued { state := .active } [readyTask]).core.dsp.tasks, (queued { state := .active } [readyTask]).core.couldTake v 0 = true → (queued { state := .active } [readyTask]).core.before v readyTask = false)
    ∧ (queued { state := .active } [readyTask]).core.load .dispatch 0 8 = ((queued { state := .active } [readyTask]).core, .ok ((queued { state := .active } [readyTask]).core.bytesAt 0 8)) :=
  ⟨rfl, by decide, by decide, lab_noBoundary _ rfl, by decide, by decide, by decide, load_of _ _ _ _ (by decide +kernel) (by decide +kernel) (no_poison_mod _ rfl rfl _ _)⟩
def placedLab : State := ⟨{ labMod { st := .idle, task := some (0, 0) } with dsp := { queues := [(0, { state := .active })], tasks := [{ readyTask with placed := [0] }] } }, []⟩
theorem witness_KernelsStart_start : (placedLab.eng 0).task = some (0, 0) ∧ (placedLab.eng 0).st = .idle ∧ placedLab.core.ptPending 0 = false ∧ (placedLab.eng 0).moving = false
    ∧ placedLab.core.task? 0 0 = some { readyTask with placed := [0] } ∧ placedLab.core.dspRuns = true ∧ placedLab.core.logicalOf 0 = 0 :=
  ⟨rfl, rfl, rfl, by decide, rfl, by decide, by decide⟩

theorem witness_EngineClocks : ((labWith id).eng 0).st = .idle ∧ ((labWith id).eng 0).task = none ∧ (labWith id).core.reservedFor ((labWith id).core.logicalOf 0) = none ∧ (labWith id).core.ptPending 0 = false
    ∧ ((labWith id).eng 0).moving = false ∧ 0 ∉ (labWith id).core.pwr.loaded
    ∧ (labWith (fun m => { m with dsp := { m.dsp with wakes := [1] } })).core.staggerOver = true ∧ ((labWith (fun m => { m with dsp := { m.dsp with wakes := [1] } })).eng (52 * 0 + 1)).st = .sleep :=
  ⟨rfl, rfl, by decide, rfl, by decide, by decide, by decide, by decide⟩

/-- A task whose kernel has ended, well and with a fault. -/
def endedTask (fault : Nat) : Task := { readyTask with placed := [0], begun := [0], ended := [0], faultCode := fault, desc := { readyTask.desc with sigs := [⟨7, 0, false, 1⟩] } }
def recAt : Queue := { ring := 4096, rlog := 4, cring := 8192, tail := 1, head := 1, state := .active }
theorem witness_TasksComplete (fault : Nat) : (queued recAt [endedTask fault]).Wf ∧ (queued recAt [endedTask fault]).NoTails ∧ (queued recAt [endedTask fault]).NoBoundary
    ∧ (queued recAt [endedTask fault]).core.task? 0 0 = some (endedTask fault) ∧ (endedTask fault).isOver = true ∧ (endedTask fault).suspect = none ∧ (endedTask fault).begun ≠ []
    ∧ (∀ v ∈ (queued recAt [endedTask fault]).core.dsp.tasks, v ≠ endedTask fault → (v.q, v.idx) ≠ (0, 0)) ∧ (queued recAt [endedTask fault]).core.clipHolds (endedTask fault) = false
    ∧ recAt.recAt 0 + 32 ≤ (queued recAt [endedTask fault]).core.memTop ∧ recAt.recAt 0 % 32 = 0 ∧ (queued recAt [endedTask fault]).core.isProt (recAt.recAt 0 / 65536) = false
    ∧ (queued recAt [endedTask fault]).core.qtAddr 0 + 64 ≤ recAt.recAt 0 ∧ (queued recAt [endedTask fault]).core.dsp.done = [] :=
  ⟨queued_wf _ _ (by decide), ⟨by intro x hx; simp [queued, labWith] at hx; subst hx; rfl, by intro x hx; cases hx⟩, lab_noBoundary _ rfl, rfl, by unfold Task.isOver; simp [endedTask, readyTask]; decide, rfl, by simp [endedTask], by intro v hv hn; simp [queued, labWith] at hv; exact absurd hv hn,
    rfl, by show 8224 ≤ 32 * 80 * 0x40000000; decide, by decide, by rfl, by show 64 ≤ 8192; decide, rfl⟩

/-! The epoch controller, logs and snapshots, the collective engine, the router -/

/-- The canonical forms, checked by evaluation. -/
def formOk (m : Mod) : Bool :=
  spWf 0#8 m.mem && spWf {} m.dsp.queues && spWf 0 m.dsp.counters && spWf {} m.ce.ctxs && spWf {} m.pages && spWf 0 m.rt.sendSeq && spWf 0 m.host.bar4
  && decide (m.regs.Pairwise (fun a b => a.1 < b.1)) && decide (∀ e ∈ m.regs, e.2 ≠ regReset e.1)

theorem wf_of (m : Mod) (h : formOk m = true) : State.Wf ⟨m, []⟩ := by
  simp only [formOk, Bool.and_eq_true, decide_eq_true_eq] at h
  obtain ⟨⟨⟨⟨⟨⟨⟨⟨h1, h2⟩, h3⟩, h4⟩, h5⟩, h6⟩, h7⟩, h8⟩, h9⟩ := h
  exact ⟨h1, h2, h3, h4, h5, h6, h7, h8, h9⟩

/-- The epoch controller as given, with one done-event counted. -/
def epLab (e : Epoch) : State := labWith (fun m => { m with ep := e, dsp := { m.dsp with counters := [(0, 1)] } })

theorem witness_EpochCommands : ∀ e ∈ [({ st := .idle } : Epoch), { st := .idle, snapActive := true }, { st := .rolledBack, step := 7 }, { st := .prepared }, { st := .opened }],
    (epLab e).Wf ∧ (epLab e).Acts pgEp ∧ (epLab e).NoTails ∧ (epLab e).core.flag pgEp 0x100 2 = false ∧ (epLab e).core.logOn = true ∧ (epLab e).core.lg.stall = false ∧ (epLab e).core.ep = e := by
  intro e he
  simp only [List.mem_cons, List.not_mem_nil, or_false] at he
  rcases he with rfl | rfl | rfl | rfl | rfl <;> exact ⟨wf_of _ (by decide), acts_of _ _ rfl (by decide) (by decide) (by decide) (by decide), noTails_of _ rfl rfl, by decide, by decide, rfl, rfl⟩

/-- A lone module votes for itself: an update-done step, one with a health word, phase 1 and phase 2. -/
theorem witness_EpochVote : (∀ e ∈ [({ st := .opened } : Epoch), { st := .opened, sh := 1#32 }, { st := .opened, contributed := true, watchdog := true }, { st := .voting, decision := .commit, watchdog := true }],
      (epLab e).Wf ∧ (epLab e).core.updateDone = true ∧ ((epLab e).core.voteResult 1).isSome = true ∧ ((epLab e).core.voteResult 2).isSome = true ∧ (epLab e).NoTails)
    ∧ (epLab { st := .opened, contributed := true }).core.joinedWord = 0#32 ∧ (epLab { st := .opened, contributed := true }).core.votesOf 1 = [] ∧ (∀ k, ((epLab { st := .opened }).eng k).wait = .none) := by
  refine ⟨?_, by decide, by decide, ?_⟩
  · intro e he
    simp only [List.mem_cons, List.not_mem_nil, or_false] at he
    rcases he with rfl | rfl | rfl | rfl <;> exact ⟨wf_of _ (by decide), by decide, by decide, by decide, noTails_of _ rfl rfl⟩
  · intro k
    show (((List.replicate 312 ({ st := .sleep } : Engine)).set 0 { st := .idle }).getD k {}).wait = .none
    rw [List.getD_eq_getElem?_getD]
    cases h : ((List.replicate 312 ({ st := .sleep } : Engine)).set 0 { st := .idle })[k]? with
    | none => rfl
    | some x =>
      rcases List.mem_or_eq_of_mem_set (List.mem_of_getElem? h) with hx | rfl
      · rw [List.eq_of_mem_replicate hx]; rfl
      · rfl

/-- Page 1 is protected; the shadow pool has `slots` slots from page 16 on. -/
def protMod (e : Epoch) (slots : Nat) : Mod :=
  { labMod { st := .idle } with ep := e, regs := [(pgEp * 4096 + 0x114, 0x100000)] ++ (if slots = 0 then [] else [(pgEp * 4096 + 0x11C, slots)]) ++ [(pgEp * 4096 + 0x140, 1), (pgEp * 4096 + 0x144, 1)] }

theorem witness_ProtectedPages : State.Wf ⟨protMod { st := .opened } 1000, []⟩ ∧ (protMod { st := .opened } 1000).isProt 1 = true ∧ (protMod { st := .opened } 1000).isProt 2 = false
    ∧ ((protMod { st := .opened } 1000).pageSt 1).s ≠ .pending ∧ ((protMod { st := .opened } 1000).pageSt 1).eslot = none ∧ (protMod { st := .opened } 1000).freeSlot = some 1 ∧ 1 * 65536 + 65536 ≤ (protMod { st := .opened } 1000).slotAddr 1
    ∧ (protMod { st := .opened } 1000).badGranules 65536 = [] ∧ (protMod { st := .opened } 0).freeSlot = none ∧ (protMod { st := .opened } 0).memTop ≤ 0x28000000000
    ∧ 131071 + 1 ≤ (protMod { st := .opened } 0).memTop ∧ 131071 % 65536 + 1 ≤ 65536 ∧ (∀ i ∈ (protMod { st := .opened } 0).stks, i.st ≠ .failed) := by
  exact ⟨wf_of _ (by decide), by decide, by decide, by decide, by decide, by decide, by decide, by decide, by decide, by decide, by decide, by decide, by decide⟩

/-- A step that is being rolled back with one copied page, and a pending CLIP_REDO. -/
theorem witness_ProtectedPages_ends : State.NoTails ⟨protMod { st := .rollingBack, restoring := true, pages := [(1, { eslot := some 900 })] } 1000, []⟩
    ∧ (∀ q ∈ (protMod { st := .rollingBack, restoring := true } 1000).dsp.queues, q.2.free = q.2.doneIdx)
    ∧ ([(1, ({ eslot := some 900 } : PageSt))].map (·.1)).Nodup ∧ 65536 * 1 + 65536 ≤ (protMod {} 1000).slotAddr 900
    ∧ ({ protMod { st := .opened, pages := [(1, { eslot := some 900, opt := true })] } 1000 with clip := { redoPending := true } } : Mod).optQuiet 0 = true
    ∧ (protMod { st := .opened } 1000).dsp.redo = [] ∧ (protMod { st := .opened } 1000).poison = [] :=
  ⟨noTails_of _ rfl rfl, fun q hq => (nomatch hq), by decide, by decide, by decide, rfl, rfl⟩

def failedStack (st : StkSt) : State := labWith (fun m => { m with stks := m.stks.set 31 { st, slot := 31 } })
theorem witness_StacksAndLog : (labWith id).Wf ∧ (labWith id).core.stks.length = 32 ∧ (labWith id).core.on (pgStack 31) = true ∧ (labWith id).core.flag (pgStack 31) 0x104 0 = true ∧ ((labWith id).core.stk 31).st = .ok
    ∧ (labWith id).core.stackOf ((labWith id).core.stackAddr 31 0) = some 31 ∧ (labWith id).core.stackAddr 31 0 < 0x28000000000 ∧ (labWith id).core.poison.contains ((labWith id).core.stackAddr 31 0 / 64) = false
    ∧ ((failedStack .failed).core.stk 31).st = .failed ∧ (labWith id).Acts (pgStack 31) ∧ (labWith id).Acts pgLog ∧ (labWith id).Open pgRng ∧ (labWith id).core.lg.delayed = []
    ∧ (epLab { st := .opened }).core.ep.isOpen = true ∧ (epLab { published := true }).core.ep.published = true :=
  ⟨lab_wf _, rfl, by decide, by decide, by decide, by decide, by decide, by decide, by decide, acts_of _ _ rfl (by decide) (by decide) (by decide) (by decide), acts_of _ _ rfl rfl rfl rfl rfl, ⟨rfl, rfl, rfl⟩, rfl, rfl, rfl⟩

/-- A snapshot of one protected page: the segment table at 4096 names three units of host memory from 0 (the image needs three). -/
def snapMod (d : SnapDma) : Mod :=
  { labMod { st := .idle } with mem := [(4104, 3#8)], sd := d, ep := { snapActive := true, pages := [(1, { s := .pending })] },
                                regs := [(pgEp * 4096 + 0x140, 1), (pgEp * 4096 + 0x144, 1), (pgSnap * 4096 + 0x100, 4096), (pgSnap * 4096 + 0x108, 1)] }
theorem witness_Snapshots : (snapMod { active := true, pages := 1 }).load .snapLog 4096 16 = (snapMod { active := true, pages := 1 }, .ok ((snapMod { active := true, pages := 1 }).bytesAt 4096 16))
    ∧ (snapMod { active := true, pages := 1 }).snapRuns = true ∧ segsOf ((snapMod { active := true, pages := 1 }).bytesAt 4096 16) 1 = [(0, 3)] ∧ imageUnits 1 = 3 ∧ unitAddr [(0, 3)] 0 = some 0
    ∧ (snapMod { active := true, started := true, pages := 1 }).nextDrain = some 0 ∧ nthProt (snapMod {}).ranges 0 = some 1 ∧ unitAddr [(0, 3)] 1 = some 65536
    ∧ (snapMod { active := true, started := true, pages := 1 }).badGranules 65536 = [] ∧ (snapMod { active := true, started := true, pages := 1, drained := [0] }).nextDrain = none :=
  ⟨load_of _ _ _ _ (by decide +kernel) (by decide) (no_poison_mod _ rfl rfl _ _), by decide, by decide, by decide, by decide, by decide, by decide, by decide, by decide, by decide⟩

/-- A Context Table entry at 0: a ring at 4096, records at 8192, a map at 12288, scratch at 65536. -/
def ctxEntry : List (Nat × Byte) := [(1, 0x10#8), (5, 0x40#8), (24, 1#8), (28, 1#8), (33, 0x30#8), (42, 1#8), (48, 1#8), (65, 0x20#8)]
def inSlice (m : Mod) : Mod := { m with regs := [(pgRouter * 4096 + 0x100, 1)] }
def ctxMod (mem : List (Nat × Byte)) : Mod := { inSlice (putMem mem (labMod { st := .idle })) with ce := { lastCtx := 255 } }
def actCtx : Context := { state := .active, ring := 4096, cring := 8192, tail := 1, axes := 1, shards := 1, smap := [0], scr := 65536, scrLen := 1 }
def ceMod (x : Context) (ops : List CollOp) : Mod := { inSlice (labMod { st := .idle }) with ce := { ctxs := [(0, x)], ops } }
def doneOp : CollOp := { ctx := 0, idx := 0, desc := { op := 6, count := 128 }, digest := 0, start := 0, written := true }

theorem witness_Contexts : State.Wf ⟨ctxMod ctxEntry, []⟩ ∧ State.Acts ⟨ctxMod ctxEntry, []⟩ pgColl ∧ ((ctxMod ctxEntry).ctx 0).state = .disabled
    ∧ (ctxMod ctxEntry).load .coll 0 128 = (ctxMod ctxEntry, .ok ((ctxMod ctxEntry).bytesAt 0 128)) ∧ (ctxMod ctxEntry).ctAddr 0 = 0
    ∧ (ctxMod ctxEntry).ctxBad ((ctxMod ctxEntry).bytesAt 0 128) [] = none ∧ (ctxMod ctxEntry).ctxBad ((ctxMod ctxEntry).bytesAt 0 128) [0] = none ∧ (ctxMod []).ctxBad ((ctxMod []).bytesAt 0 128) [] = some 0
    ∧ (∀ st ∈ [QState.active, .halted, .draining], State.Wf ⟨ceMod { actCtx with state := st } [], []⟩ ∧ ((ceMod { actCtx with state := st } []).ctx 0).state = st)
    ∧ (ceMod actCtx [doneOp]).op? 0 0 = some doneOp ∧ doneOp.nodesSent ((ceMod actCtx [doneOp]).coll 0 doneOp.desc) = true ∧ (ceMod actCtx [doneOp]).rt.msgs = [] ∧ State.NoTails ⟨ceMod actCtx [doneOp], []⟩
    ∧ actCtx.recAt 0 + 32 ≤ (ceMod actCtx [doneOp]).memTop ∧ (ceMod actCtx [doneOp]).ctAddr 0 + 128 ≤ actCtx.recAt 0 ∧ (ceMod actCtx [doneOp]).isProt (actCtx.recAt 0 / 65536) = false :=
  ⟨wf_of _ (by decide), acts_of _ _ rfl (by decide) (by decide) (by decide) (by decide), by decide, load_of _ _ _ _ (by decide +kernel) (by decide) (no_poison_mod _ rfl rfl _ _), by decide, by decide +kernel,
    by decide +kernel, by decide +kernel, by
      intro st hst
      simp only [List.mem_cons, List.not_mem_nil, or_false] at hst
      rcases hst with rfl | rfl | rfl <;> exact ⟨wf_of _ (by decide), by decide⟩,
    by rfl, by decide, rfl, And.intro (by intro q hq; cases hq) (by intro c hc; simp [ceMod, inSlice] at hc; subst hc; rfl), by decide, by decide, by decide⟩

/-- One operation of each kind: 128 elements (one exact sum for LSUM_ALL and NORM) from 131072 to 196608, no record. -/
def opEntry (op count : Byte) : List (Nat × Byte) := [(4096, op), (4106, 2#8), (4114, 3#8)] ++ (if count = 0#8 then [] else [(4136, count)]) ++ [(4199, 0x80#8)]
def opMod (op count : Byte) : Mod := { ceMod actCtx [] with mem := opEntry op count }
def opStarts (op : Nat) : Bool :=
  let s := opMod (BitVec.ofNat 8 op) (if op = 9 || op = 10 then 1#8 else 128#8)
  let b := s.bytesAt 4096 128
  let d := CollDesc.ofBytes b
  let m := s.setCtx 0 { s.ctx 0 with head := 1 }
  let k := m.coll 0 d
  let newMap := if d.op = 8 then (chunksOf 2 k.auxLen (m.bytesAt d.aux k.auxLen)).map ofLe else []
  s.ceRuns && decide ((s.ctx 0).state = .active) && covered (s.ctx 0).head (s.ctx 0).tail && s.opMay 0 && formOk s && d.op = op && !d.waitEn && !d.ragged && collDescBad 1 k.g.length b = none && (m.collNumBad 0 1 d).isNone
  && newMap.all (fun r => decide (r < k.g.length)) && !overlap d.src (k.spans newMap).1 d.dst (k.spans newMap).2 && (d.op ≠ 8 || (k.spanBad newMap).isNone)
  && (if d.exact then (if (k.spans newMap).1 = 0 then [] else [(d.src, (k.spans newMap).1)]) else k.regions (k.inputs [])).all (fun r => (m.firstBad .coll (pageFuel r.2) r.1 r.2).isNone && decide (r.1 < m.memTop) && (m.firstPoison r.1 r.2).isNone)
theorem witness_Operations : ∀ op, 1 ≤ op → op ≤ 10 → opStarts op = true := by
  intro op h1 h2
  have : op ∈ [1, 2, 3, 4, 5, 6, 7, 8, 9, 10] := by simp; omega
  simp only [List.mem_cons, List.not_mem_nil, or_false] at this
  rcases this with rfl | rfl | rfl | rfl | rfl | rfl | rfl | rfl | rfl | rfl <;> decide +kernel
theorem witness_Operations_bad : collDescBad 1 1 ((opMod 6#8 0#8).bytesAt 4096 128) = some 40 := by decide +kernel

/-- A COLL message of kind n, whole, from module 0, for operation 0 of context 0. -/
def heard (n : Nat) (y : InMsg) : InMsg := { y with arg := n * 256 }
def coll0 : InMsg := { src := 0, seq := 9, inc := 0, type := 6, addr := 0x30000, arg := 0, cnt := 1, slice := 1 }
def hearing (n : Nat) (x : Context) (ops : List CollOp) (y : InMsg) : Mod := { ceMod x ops with rt := { inReset := false, whole := [heard n y] } }
theorem witness_CollectiveMessages (n : Nat) (hn : n < 6) : (hearing n actCtx [] coll0).rt.whole.find? (fun y => y.type = 6 && y.kind = n) = some (heard n coll0) ∧ (heard n coll0).dup = false ∧ (heard n coll0).status = 0
    ∧ State.Wf ⟨hearing n actCtx [] coll0, []⟩ ∧ (hearing n actCtx [] coll0).ce.ops.find? (fun o => o.ctx = (heard n coll0).ctx && o.idx % 65536 = (heard n coll0).idx) = none := by
  have : n = 0 ∨ n = 1 ∨ n = 2 ∨ n = 3 ∨ n = 4 ∨ n = 5 := by omega
  rcases this with rfl | rfl | rfl | rfl | rfl | rfl <;> exact ⟨by decide, rfl, rfl, wf_of _ (by decide), by rfl⟩
def recvOp : CollOp := { ctx := 0, idx := 0, desc := { op := 7, count := 128 }, digest := 0, start := 0 }
def sendOp : CollOp := { ctx := 0, idx := 0, desc := { op := 6 }, digest := 0, start := 0, parts := [default] }
def formedOp : CollOp := { ctx := 0, idx := 0, desc := { op := 1, count := 128 }, digest := 0, start := 0, formed := true, written := true, parts := [default] }
theorem witness_CollectiveMessages_ops : (∀ o ∈ [recvOp, formedOp, doneOp], (ceMod actCtx [o]).ce.ops.find? (fun p => p.ctx = (heard 0 coll0).ctx && p.idx % 65536 = (heard 0 coll0).idx) = some o ∧ (heard 0 coll0).digest = o.digest)
    ∧ (ceMod actCtx [sendOp]).ce.ops.find? (fun o => o.ctx = 0 && o.desc.op = 6 && o.ready.isNone && o.desc.root = 0 && o.desc.tag = 0) = some sendOp ∧ sendOp.desc.converts = false
    ∧ formedOp.sent.contains ⟨0, 0, 0, 0⟩ = false ∧ (formedOp.nodeBytes ((ceMod actCtx [formedOp]).coll 0 formedOp.desc) ⟨0, 0, 0, 0⟩).isSome = true := by decide

/-- A message of a type, whole, in the router. -/
def ofType (ty arg : Nat) : InMsg := { src := 0, seq := 9, inc := 0, type := ty, addr := 0, arg, cnt := 1, slice := 1 }
def messages (whole : List InMsg) (msgs : List Msg) : Mod := { labMod { st := .idle } with regs := [(pgDsp * 4096 + 0x108, 0x50000)], rt := { inReset := false, whole, msgs } }
def sentMsg (ty : Nat) (left : List Nat) (o : Owner) : Msg := { owner := o, dst := 0, seq := 5, type := ty, tc := 0, slice := 0, direct := false, addr := 0, arg := 0, data := [], started := true, left }
theorem witness_Messages (ty arg : Nat) (msgs : List Msg) : State.Wf ⟨messages [ofType ty arg] msgs, []⟩ ∧ State.NoTails ⟨messages [ofType ty arg] msgs, []⟩
    ∧ (messages [ofType ty arg] msgs).rt.whole.find? (fun y => y.type = ty) = some (ofType ty arg) :=
  ⟨⟨rfl, rfl, rfl, rfl, by show spWf {} (labMod {}).pages = true; decide, rfl, rfl, by show [(pgDsp * 4096 + 0x108, 0x50000)].Pairwise (fun a b => a.1 < b.1); decide,
    by show ∀ e ∈ [(pgDsp * 4096 + 0x108, 0x50000)], e.2 ≠ regReset e.1; decide⟩, noTails_of _ rfl rfl, by simp [messages, ofType]⟩
/-- A READ_REQ for 64 bytes; an EV_INC for counter 0, which the window takes, and for the first one above it; an answer to a message that waits for it; a message whose packets have all left. -/
theorem witness_Messages_values : (messages [] []).load (.remote 0) 0 64 = (messages [] [], .ok ((messages [] []).bytesAt 0 64)) ∧ (ofType 2 (2 ^ 44)).arg / 2 ^ 44 = 1
    ∧ (messages [] []).fld pgDsp 0x108 0 16 ≤ bitsOf (ofType 4 0).arg 0 16 ∧ (messages [] []).fld pgDsp 0x108 16 16 < bitsOf (ofType 4 6).arg 0 16
    ∧ (messages [] [sentMsg 2 [] (.dma 0 3)]).rt.msgs.find? (fun x => x.dst = 0 && x.seq = bitsOf (ofType 3 5).arg 0 32 && x.type = 2) = some (sentMsg 2 [] (.dma 0 3))
    ∧ (messages [] [sentMsg 1 [] .none]).rt.msgs.find? (fun x => x.dst = 0 && x.seq = bitsOf (ofType 5 5).arg 0 32 && x.started && needsAck x.type) = some (sentMsg 1 [] .none)
    ∧ needsAck 1 = true ∧ (messages [] []).rtOn = true ∧ (sentMsg 1 [] .none).attempt < (messages [] []).fld pgRouter 0x158 16 4 ∧ (sentMsg 1 [] .none).owner.isPlain = true := by
  refine ⟨load_of _ _ _ _ (by decide +kernel) (by decide) (no_poison_mod _ rfl rfl _ _), ?_⟩
  decide

def portMod (p : Port) : Mod := { labMod { st := .idle } with ports := List.replicate 18 { st := .down } ++ [p] }
theorem witness_Links (p : Port) : State.Wf ⟨portMod p, []⟩ ∧ (portMod p).ports.length = 19 ∧ (portMod p).port 18 = p ∧ (portMod p).rt.inReset = false ∧ State.Open ⟨portMod p, []⟩ pgRouter :=
  ⟨⟨rfl, rfl, rfl, rfl, by show spWf {} (labMod {}).pages = true; decide, rfl, rfl, by exact List.Pairwise.nil, by intro x hx; cases hx⟩, rfl, rfl, rfl, ⟨rfl, by rfl, by rfl⟩⟩
/-- The frame that port 18 expects, and one from its bundle partner; a version that both have and one that is not. -/
theorem witness_Links_frames : ({ (default : IdFrame) with modid := 120 } : IdFrame).machine = (portMod {}).reg pgRouter 0x108 ∧ 120 = (portMod {}).expected 18 ∧ bundlePartner (expectedPort 18) = some 15 ∧ expectedPort 18 = 16
    ∧ max 1 1 ≤ min 1 1 ∧ min 0 1 < max (2 : Nat) 1 ∧ ({ portMod {} with rt := { inReset := false, quar := true } } : Mod).rt.quar = true := by decide

def pkt (dst : Nat) (crcOk : Bool) : Packet := { (default : Packet) with dst := dst, inter := dst, last := true, type := 7, phase := true, seq := 1, cnt := 1, age := 1000000, crcOk := crcOk }
def holding (dst : Nat) (crcOk : Bool) (up : Bool) : Mod :=
  { labMod { st := .idle } with ports := List.replicate 18 { st := if up then .up else .down } ++ [{ st := .up, buf := [⟨pkt dst crcOk, 1000000⟩] }] }
/-- A packet for the next module on the board, with ports UP and with all others DOWN; one for this module, good and with a bad CRC. -/
theorem witness_Packets : (∀ dst ∈ [0, 1], ∀ c ∈ [true, false], ∀ u ∈ [true, false], formOk (holding dst c u) = true ∧ (holding dst c u).rtOn = true ∧ (holding dst c u).rt.msgs = []
      ∧ ((holding dst c u).port 18).buf = [⟨pkt dst c, 1000000⟩] ∧ ((holding dst c u).port 18).full = false ∧ (holding dst c u).native (pkt dst c) = true) := by decide +kernel
theorem witness_Packets_ways : (((holding 1 true true).ways (pkt 1 true)).filter (fun w => (holding 1 true true).allows (pkt 1 true) w.1)).length = 1
    ∧ ((holding 1 true false).ways (pkt 1 true)).filter (fun w => (holding 1 true false).allows (pkt 1 true) w.1) = [] ∧ (holding 1 true true).time < 1000000 + 11 ∧ (holding 0 true true).modid = 0
    ∧ (holding 0 true true).refuses (pkt 0 true) = 0 ∧ ((holding 0 true true).waiting 18)[0]? = some ⟨18, false, ⟨pkt 0 true, 1000000⟩⟩ := by decide +kernel

/-! Power, dependability, time, registers, the host -/

def power (st : PowerSt) (pins : Pins) (f : Felt) : Mod := { labMod { st := .idle } with pwr := { st }, pins, felt := f }
def runs : Felt := { running := true, stage := .ready, announced := some 0 }
def highPins : Pins := { pwrEn := true, modResetN := true, perstN := true, pwrGood := true }

theorem witness_PowerAndResets (st : PowerSt) (pins : Pins) (f : Felt) : State.Wf ⟨power st pins f, []⟩ ∧ (power st pins f).pwr.st = st ∧ (power st pins f).pins = pins ∧ (power st pins f).felt = f ∧ (power st pins f).rt.msgs = [] :=
  ⟨⟨rfl, rfl, rfl, rfl, by show spWf {} (labMod {}).pages = true; decide, rfl, rfl, by exact List.Pairwise.nil, by intro x hx; cases hx⟩, rfl, rfl, rfl, rfl⟩
/-- Waiting for a release with the board position known and unknown; operation before a compute reset; a router reset under way. -/
theorem witness_PowerAndResets_clauses :
    (power .on { highPins with modResetN := false } { runs with stage := .waitRel }).powered = true ∧ (power .on { highPins with modResetN := false } { runs with stage := .waitRel }).flag pgFelt 0x104 31 = false
    ∧ ({ power .on { highPins with modResetN := false } { runs with stage := .waitRel } with rt := {}, regs := [(pgFelt * 4096 + 0x104, 0x80000000)] } : Mod).flag pgFelt 0x104 31 = true
    ∧ (power .on highPins runs).booted = true ∧ (power .on highPins runs).fwdOnly = false ∧ (power .on highPins runs).kat.wait = [] ∧ (∀ c ∈ (power .on highPins runs).dep.cls, c = none)
    ∧ (power .on highPins runs).rt.inReset = false ∧ ({ power .on highPins runs with rt := { cmdReset := true } } : Mod).rt.cmdReset = true ∧ (power .standby {} runs).pwr.st = .standby ∧ (power .fwdOnly highPins runs).powered = true := by decide

/-- The slots of the laboratory: 0 backs logical engine 0, the others are reserves. -/
theorem lab_slot (m : Mod) (h : m.dep.slots = (List.replicate 312 ({ st := .reserve } : SlotDep)).set 0 { st := .active }) (j : Nat) :
    m.slot j = { st := .active } ∨ m.slot j = { st := .reserve } ∨ m.slot j = {} := by
  unfold Mod.slot
  rw [h, List.getD_eq_getElem?_getD]
  cases hj : ((List.replicate 312 ({ st := .reserve } : SlotDep)).set 0 { st := .active })[j]? with
  | none => exact .inr (.inr rfl)
  | some x =>
    rcases List.mem_or_eq_of_mem_set (List.mem_of_getElem? hj) with hx | rfl
    · exact .inr (.inl (by rw [List.eq_of_mem_replicate hx]; rfl))
    · exact .inl rfl

theorem lab_only (m : Mod) (h : m.lmap = (List.replicate 288 ({} : LmapEntry)).set 0 { valid := true }) (a j : Nat) (hs : m.slotOf a = some j) : a = 0 ∧ j = 0 := by
  unfold Mod.slotOf at hs
  rw [h] at hs
  cases a with
  | zero => exact ⟨rfl, (Option.some.inj hs).symm⟩
  | succ a =>
    rw [List.getD_eq_getElem?_getD, List.getElem?_set_ne (by omega), List.getElem?_replicate] at hs
    split at hs <;> simp at hs

theorem witness_Dependability : (labWith id).Wf ∧ (labWith id).core.dep.slots.length = 312 ∧ (labWith id).core.engs.length = 312 ∧ (labWith id).core.lmap.length = 288 ∧ (labWith id).core.fwdOnly = false
    ∧ (∀ j, ((labWith id).core.slot j).st ≠ .trial ∧ ((labWith id).core.slot j).lentTo = none ∧ ((labWith id).core.slot j).testWaits = false)
    ∧ (∀ a j, (labWith id).core.slotOf a = some j → ((labWith id).core.slot j).st ≠ .fenced ∧ ∀ b, (labWith id).core.slotOf b = some j → a = b)
    ∧ (labWith id).core.slotIdx 0 0 = some 0 ∧ (labWith id).core.logicalOf 0 = 0 ∧ (labWith id).core.reserveOf 0 = some 1 ∧ (labWith id).core.atBoundary 0 = true ∧ (labWith id).core.testRoom 0 = true
    ∧ (labWith id).core.on pgCal = true ∧ (labWith id).Acts pgCal ∧ (labWith id).core.logicalOf 311 = 0x1FF ∧ ((labWith id).core.slot 1).st = .reserve := by
  refine ⟨lab_wf _, ?_, lab_length _, ?_, rfl, ?_, ?_, by decide, by decide, by decide +kernel, by decide, by decide +kernel, by decide, acts_of _ _ rfl rfl rfl rfl rfl, by decide +kernel, by decide⟩
  · show ((List.replicate 312 ({ st := .reserve } : SlotDep)).set 0 { st := .active }).length = 312
    rw [List.length_set, List.length_replicate]
  · show ((List.replicate 288 ({} : LmapEntry)).set 0 { valid := true }).length = 288
    rw [List.length_set, List.length_replicate]
  · intro j
    rcases lab_slot (labWith id).core rfl j with h | h | h <;> rw [h] <;> decide
  · intro a j h
    obtain ⟨rfl, rfl⟩ := lab_only (labWith id).core rfl a j h
    exact ⟨by decide, fun b hb => (lab_only (labWith id).core rfl b 0 hb).1.symm⟩

/-- One slot of the laboratory changed; a classification. -/
def slotLab (k : Nat) (d : SlotDep) : State := labWith (fun m => { m with dep := { m.dep with slots := m.dep.slots.set k d } })
def clsLab (c : Cls) : State := labWith (fun m => { m with dep := { m.dep with cls := some c :: List.replicate 15 none } })
theorem witness_Dependability_clauses : ((slotLab 0 { st := .active, fencePend := some 2 }).core.slot 0).fencePend = some 2 ∧ (slotLab 0 { st := .active, fencePend := some 2 }).core.atBoundary 0 = true
    ∧ ((slotLab 0 { st := .active, trialPend := true }).core.slot 0).trialPend = true ∧ (clsLab ⟨⟨0, 0, 0, 0, 0⟩, 1, 1, 0, 0⟩).core.dep.cls.getD 0 none = some ⟨⟨0, 0, 0, 0, 0⟩, 1, 1, 0, 0⟩
    ∧ ((slotLab 2 { st := .test, testFrom := some .reserve }).core.slot 2).testFrom = some .reserve ∧ (slotLab 2 { st := .test, testFrom := some .reserve }).core.logicalOf 2 = 0x1FF
    ∧ (labWith id).core.pwr.st = .on := by decide +kernel

def feltMod (f : Felt) (t : TimeSt) : Mod := { labMod { st := .idle } with felt := f, mt := t }
theorem witness_FrameAndTime (f : Felt) (t : TimeSt) : State.Wf ⟨feltMod f t, []⟩ ∧ (feltMod f t).stks.length = 32 ∧ (feltMod f t).engs.length = 312 ∧ (feltMod f t).felt = f ∧ (feltMod f t).mt = t ∧ (feltMod f t).powered = true :=
  ⟨⟨rfl, rfl, rfl, rfl, by show spWf {} (labMod {}).pages = true; decide, rfl, rfl, by exact List.Pairwise.nil, by intro x hx; cases hx⟩, rfl, lab_length _, rfl, rfl, rfl⟩
theorem witness_FrameAndTime_clauses : (feltMod { runs with leader := some 0 } {}).leads = true ∧ (feltMod runs {}).here.w = 0 ∧ (feltMod runs {}).booted = true ∧ (feltMod { runs with tAct := some 1000000 } {}).time = 1000000
    ∧ 0 + 64 ≤ (feltMod runs {}).memTop ∧ (feltMod runs {}).firstPoison 0 64 = none ∧ ((portMod { st := .up }).port 18).st = .up ∧ (feltMod runs { started := true }).tickMaster = false := by decide

/-- A page of each kind of header: configured and off, on, with a disable in progress. -/
def pageMod (p : Page) : Mod := { labMod { st := .idle } with pages := [(pgPwr, p)] }
theorem witness_Registers (p : Page) (h : p ≠ {}) : State.Wf ⟨pageMod p, []⟩ ∧ pageBlk pgPwr = some (.pwr, 0) ∧ (pageMod p).host.d3 = false ∧ (pageMod p).reachable pgPwr = true ∧ (pageMod p).shadow pgPwr = false
    ∧ State.Open ⟨pageMod p, []⟩ pgPwr ∧ (pageMod p).page pgPwr = p :=
  ⟨⟨rfl, rfl, rfl, rfl, by show spWf {} [(pgPwr, p)] = true; simp [spWf, spWfFrom, h], rfl, rfl, by exact List.Pairwise.nil, by intro x hx; cases hx⟩, by decide, rfl, by rfl, by rfl, ⟨rfl, by rfl, by rfl⟩,
    by simp [pageMod, Mod.page, spRead]⟩
theorem witness_Registers_clauses : firstFail ((pageMod { err := 1 }).enableChecks pgPwr) = none ∧ (∃ r, regRow .felt 0x104 = some r ∧ r.acc = .cfg) ∧ (pageMod { enabled := true, busy := true }).stopped pgPwr = true
    ∧ (labWith id).core.reachable 0x3FF = false ∧ State.Acts ⟨labMod { st := .idle }, []⟩ pgHost ∧ State.Open ⟨labMod { st := .idle }, []⟩ (pgSlot 311) :=
  ⟨by decide, ⟨_, rfl, by decide⟩, by decide, by decide, acts_of _ _ rfl rfl rfl rfl rfl, ⟨rfl, by rfl, by rfl⟩⟩

def hostMod (h : HostIf) (sd : SnapDma) : Mod := { labMod { st := .idle } with host := h, sd }
theorem witness_HostPort (h : HostIf) (sd : SnapDma) (hb : spWf 0 h.bar4 = true) : State.Wf ⟨hostMod h sd, []⟩ ∧ (hostMod h sd).hostRuns = true ∧ (hostMod h sd).powered = true ∧ (hostMod h sd).on pgHost = true ∧ (hostMod h sd).manages = true
    ∧ (hostMod h sd).host = h ∧ (hostMod h sd).memTop ≤ 0x28000000000 :=
  ⟨⟨rfl, rfl, rfl, rfl, by show spWf {} (labMod {}).pages = true; decide, rfl, hb, by exact List.Pairwise.nil, by intro x hx; cases hx⟩, rfl, rfl, rfl, rfl, rfl, by show 32 * 80 * 0x40000000 ≤ 0x28000000000; decide⟩
/-- The last byte of BAR2's window over the memory; poison there; the last backed byte. -/
theorem witness_HostPort_clauses : (hostMod {} {}).fld pgHost 0x108 0 12 = 0 ∧ 0x1FFFFFFFFF + 1 ≤ 128 * 0x40000000 ∧ 0x1FFFFFFFFF + 1 ≤ (hostMod {} {}).memTop ∧ (hostMod {} {}).firstPoison 0x1FFFFFFFFF 1 = none
    ∧ ({ hostMod {} {} with poison := [0x1FFFFFFFFF / 64] } : Mod).firstPoison 0x1FFFFFFFFF 1 = some 0x1FFFFFFFFF ∧ (hostMod {} {}).isProt (0x1FFFFFFFFF / 65536) = false ∧ (∀ k ∈ (hostMod {} {}).stks, k.st ≠ .failed)
    ∧ (hostMod { bme := true } { active := true }).sd.active = true ∧ (hostMod { rate := 6 } {}).host.rate ≠ 0 := by decide +kernel

/-- An idle block; a listed word; a state that a step maps to another. -/
theorem witness_StepTakesFront : (lab { st := .idle }).pending = [] ∧ (lab { st := .idle }).core.mt.started = true := ⟨rfl, rfl⟩
theorem witness_WordRoundTrip : (EngWord.r 0x01#8 f0).listed = true ∧ EngWord.decode (EngWord.r 0x01#8 f0).encode = some (.r 0x01#8 f0) := by decide
theorem witness_FormKept : (lab { st := .idle }).Wf ∧ (lab { st := .idle }).Sized ∧ ∃ t, step (lab { st := .idle }) = .next t := by
  refine ⟨lab_wf _, ⟨?_, lab_length _, ?_, ?_, rfl, rfl, rfl⟩, _, rfl⟩
  · show ((List.replicate 288 ({} : LmapEntry)).set 0 { valid := true }).length = 288
    rw [List.length_set, List.length_replicate]
  · show ((List.replicate 312 ({ st := .reserve } : SlotDep)).set 0 { st := .active }).length = 312
    rw [List.length_set, List.length_replicate]
  · show fuseMap.length = 312
    decide +kernel

/-! Results from the spec's tables and worked examples, and a few worked out by hand -/

/-- R265: the two vectors of ZCG-64. -/
theorem test_zcg64 : zcg64 0#64 0 0 0 = 0xFDDA0B4107E7CCC5#64 ∧ zcg64 0#64 0 0 1 = 0xED3A0A8207E6CCBD#64 := by decide +kernel
/-- The example after R128 to R131: 0x77 in ZF8 at code 0x63 times 0x9F in ZG8 at code 0x5F is -6.5625. -/
theorem test_leaf : Fmt.b32.encode ((applyCode (Fmt.zf8.decode 0x77) 0x63).mul (applyCode (Fmt.zg8.decode 0x9F) 0x5F)) = 0xC0D20000 := by decide +kernel
/-- The example of chapter 1: offset 0x12340 of the store of panel 3, slot 50. -/
theorem test_store_address : esAddr (52 * 3 + 50) 0x12340 = 0xF003C812340 ∧ pgSlot (52 * 3 + 50) = 0x01F2 := by decide
/-- The examples of chapters 0 and 10. -/
theorem test_module_ids : (Coord.mk 5 9 3 6).id = 0x2C9E ∧ (Coord.mk 5 2 9 6).id = 0x294E ∧ (Coord.mk 7 14 10 1).id = 0x3F51 ∧ coordOf 0x394C = Coord.mk 7 2 9 4 := by decide
/-- Chapter 16: BAR2 with GIB 0x500. -/
theorem test_bar2 : 0x500 * 0x40000000 + 0x300000000 = 0x14300000000 := by decide

/-- What a command leaves, read by g. -/
def after {α : Type} (c : Instr) (s : State) (g : State → α) : Option α := match exec c s with
  | .next t => some (g t)
  | _ => none

/-- Register 1 of slot 0 after an instruction on s2 and s3. -/
def gives1 (c : Instr) (a b : W64) : Option Nat := after c (labOf c (regs3 a b 0#64)) (fun t => ((t.eng 0).getS 1).toNat)

theorem test_add_wraps : gives1 (.add 0 f0) 0xFFFFFFFFFFFFFFFF#64 2#64 = some 1 := by decide +kernel
theorem test_sub_borrows : gives1 (.sub 0 f0) 0#64 1#64 = some 0xFFFFFFFFFFFFFFFF := by decide +kernel
theorem test_sra_sign : gives1 (.sra 0 f0) 0x8000000000000000#64 63#64 = some 0xFFFFFFFFFFFFFFFF := by decide +kernel
theorem test_shl_mod_64 : gives1 (.shl 0 f0) 3#64 65#64 = some 6 := by decide +kernel
theorem test_mulhu_high : gives1 (.mulhu 0 f0) 0xFFFFFFFFFFFFFFFF#64 0xFFFFFFFFFFFFFFFF#64 = some 0xFFFFFFFFFFFFFFFE := by decide +kernel
theorem test_slt_signed : gives1 (.slt 0 f0) 0xFFFFFFFFFFFFFFFF#64 0#64 = some 1 ∧ gives1 (.sltu 0 f0) 0xFFFFFFFFFFFFFFFF#64 0#64 = some 0 := by decide +kernel
/-- 1.0 + 2^-24 is a tie, to even; the product of two large numbers is +Inf. -/
theorem test_fadd_tie : gives1 (.fadd 0 f0) 0x3F800000#64 0x33800000#64 = some 0x3F800000 := by decide +kernel
theorem test_fmul_overflow : gives1 (.fmul 0 f0) 0x7F000000#64 0x7F000000#64 = some 0x7F800000 := by decide +kernel
/-- ADDI with a negative immediate. -/
theorem test_addi_negative : gives1 (.addi 0 ⟨1#6, 2#6, 0xFFFFFFFFFFF#44⟩) 0#64 0#64 = some 0xFFFFFFFFFFFFFFFF := by decide +kernel
/-- A store is little-endian, and s0 stores 0. -/
theorem test_stw_bytes : after (.stw 0 ⟨3#6, 2#6, 4#44⟩) (labOf (.stw 0 ⟨3#6, 2#6, 4#44⟩) (regs3 0#64 0x11223344#64 0#64)) (fun t => (t.byte (esAddr 0 4), t.byte (esAddr 0 7), t.byte (esAddr 0 8))) = some (0x44, 0x11, 0) := by
  decide +kernel
/-- A misaligned load takes ESTORE_ALIGN, 0x0224, and the engine is IDLE. -/
theorem test_ld_align : after (.ld 0 ⟨1#6, 2#6, 4#44⟩) (labOf (.ld 0 ⟨1#6, 2#6, 4#44⟩) id) (fun t => ((t.eng 0).st, (t.eng 0).faultCode)) = some (.idle, 0x0224) := by decide +kernel

/-- The example of chapter 15: STAGGER written while dispatch is enabled is discarded with CFG_IGNORED, details 0x110, 0x40, 6. -/
theorem test_wake_ignored : after (.registerWrite hostCode pgDsp 0x110 4 0x40) (labWith id) (fun t => ((t.core.page pgDsp).err, t.core.reg pgDsp 0x110, t.core.events.map (fun e => [e.code, e.d0, e.d1, e.d2])))
    = some (1, 0x20, [[Ev.cfgIgnored, 0x110, 0x40, 6]]) := by decide +kernel
/-- Its step 6: with STAGGER 8 the page stays disabled, PG_ERR reads 2, and CFG_MISMATCH names 0x110 and 8. -/
theorem test_wake_mismatch : after (.pageEnable hostCode pgDsp) (labWith (fun m => { m with pages := [], regs := [(pgDsp * 4096 + 0x110, 8)] })) (fun t => (t.core.on pgDsp, (t.core.page pgDsp).err, t.core.events.map (fun e => [e.code, e.d0, e.d1, e.d2])))
    = some (false, 2, [[Ev.cfgMismatch, 0x110, 1, 8]]) := by decide +kernel
/-- Its step 8: with STAGGER 64 the page is enabled. -/
theorem test_wake_enabled : after (.pageEnable hostCode pgDsp) (labWith (fun m => { m with pages := [], regs := [(pgDsp * 4096 + 0x10C, 0x3E8), (pgDsp * 4096 + 0x110, 0x40)] })) (fun t => (t.core.on pgDsp, t.core.events)) = some (true, []) := by decide +kernel

/-- An empty queue lets a nanosecond pass; a full one runs its first command. -/
theorem test_step_front : (match step { lab { st := .idle } with pending := [.perstNRelease, .quarantineEnd] } with | .next t => t.pending | _ => []) = [.quarantineEnd] := by decide +kernel
/-- R526: in the idle nanosecond machine time advances by one, and at +100 ppm the fraction of 10⁻⁹ ns grows by 100,000. -/
theorem test_idle_time : (labMod {}).passTime.time = 1000001 ∧ ({ labMod {} with mt := { started := true, rate := 100000 } } : Mod).passTime.mt.frac = 100000 := by decide +kernel


/-! Hypotheses of clauses about checks, the shadow pool, poison, resets and messages of a module to itself -/

theorem witness_TileDrains_checked : drainLab.Checked 0 t0 ∧ ptLab.Checked 0 ptTile := ⟨fun _ => by decide +kernel, fun _ => by decide +kernel⟩
theorem witness_PanelTree_clauses : drainDescBad drainB false = none ∧ (∀ q ∈ sortParts [ptLead], q.slot = 0 ↔ q.eng = ptLead.eng) ∧ ptLab.Accepts 0 0 (preAccs ptTile)
    ∧ ({ (default : PtPart) with seq := 1 } : PtPart).seq ≠ (ptLab.eng 0).nsSeq :=
  ⟨by decide, by decide, accepts_mod _ rfl rfl rfl rfl _ (by decide), by decide⟩

/-- One uncorrectable granule in the range of a transfer. -/
def poisoned (y : Xfer) : State := ⟨{ (moving y).core with poison := [1] }, []⟩
theorem witness_TransfersEnd_poisoned : ((poisoned getX).core.load (.engine 0) 64 64).2 = .poisoned 64 ∧ regionOf 64 = .mem ∧ ((poisoned getX).eng 0).faultCode = 0 := by decide +kernel

theorem witness_Pieces_page : (withStack (.jpop 0 fx) oneChain).core.on pgEp = true
    ∧ ({ (withStack (.jpop 0 fx) oneChain).core with pages := [] } : Mod).on pgEp = false ∧ State.Next ⟨{ (withStack (.jpop 0 fx) oneChain).core with pages := [] }, []⟩ (.jpop 0 fx) 0 0 :=
  ⟨by decide, by decide, next_mod _ _ (by decide) rfl (lab_length _) rfl ⟨rfl, rfl, rfl, rfl, rfl⟩⟩

/-- A task that has been read and not begun, at the end of the numbers of a ring. -/
theorem witness_QueueCommands_returned :
    let s := queued { ring := 4096, rlog := 4, tail := 1, state := .active } [{ readyTask with idx := 2 ^ 32 - 1 }]
    s.Acts pgDsp ∧ s.core.dsp.tasks.filter (fun v => v.q = 0) = [{ readyTask with idx := 2 ^ 32 - 1 }] ∧ ({ readyTask with idx := 2 ^ 32 - 1 } : Task).begun = [] ∧ (s.core.queue 0).head = (2 ^ 32 - 1 + 1) % 2 ^ 32 ∧ s.core.dsp.done = [] :=
  ⟨acts_of _ _ rfl rfl rfl rfl rfl, by decide, rfl, by decide, rfl⟩

/-- Page 1 is the first protected page, whose page-state entry is at EP_PST_BASE, here 0x200000; the directory is at the start of the pool, page 16. -/
def pstMod (e : Epoch) : Mod := { protMod e 1000 with regs := [(pgEp * 4096 + 0x114, 0x100000), (pgEp * 4096 + 0x11C, 1000), (pgEp * 4096 + 0x120, 0x200000), (pgEp * 4096 + 0x140, 1), (pgEp * 4096 + 0x144, 1)] }
theorem pst_outside (l : List (Nat × PageSt)) (hl : ∀ x ∈ l, x.1 = 1) (hs : ∀ x ∈ slotsOf l, x < 1000) (a : Nat) (h : a < 0x100000 ∨ 0x200008 ≤ a ∨ (0x110000 ≤ a ∧ a < 0x200000)) : (pstMod {}).OutsidePool l a := by
  refine ⟨fun e he j hj => ?_, fun x hx => ?_⟩
  · have h1 : protIndex (pstMod {}).ranges 1 = some 0 := by decide
    rw [hl e he, h1] at hj
    obtain rfl := Option.some.inj hj
    have h2 : (pstMod {}).reg64 pgEp 0x120 0x124 = 0x200000 := by decide
    dsimp only
    rw [h2]; omega
  · have := hs x hx
    have h2 : (pstMod {}).reg64 pgEp 0x114 0x118 = 0x100000 := by decide
    dsimp only
    rw [h2]; omega
theorem witness_ProtectedPages_pool (i : Nat) (hi : i < 65536) :
    (pstMod {}).OutsidePool [(1, { eslot := some 900 })] (65536 * 1 + i) ∧ (pstMod {}).OutsidePool [(1, { eslot := some 900 })] ((pstMod {}).slotAddr 900 + i) := by
  have h2 : (pstMod {}).slotAddr 900 = 0x100000 + 65536 * 900 := by decide
  exact ⟨pst_outside _ (by decide) (by decide) _ (by omega), pst_outside _ (by decide) (by decide) _ (by omega)⟩

theorem witness_Snapshots_form : ∀ d ∈ [({ active := true, pages := 1 } : SnapDma), { active := true, started := true, pages := 1 }], State.Wf ⟨snapMod d, []⟩ := by
  intro d hd
  simp only [List.mem_cons, List.not_mem_nil, or_false] at hd
  rcases hd with rfl | rfl <;> exact wf_of _ (by decide)

theorem witness_Contexts_record : (ceMod actCtx [doneOp]).opWaits 0 0 = false ∧ ((ceMod actCtx [doneOp]).store .coll (actCtx.recAt 0) (recordBytes 0 false false false false 0 0 1000000 0x1FF 1) false).2 = none
    ∧ ((ceMod { actCtx with cring := 0x28000000000 } [doneOp]).store .coll 0x28000000000 (recordBytes 0 false false false false 0 0 1000000 0x1FF 1) false).2 = some 0x28000000000 := by decide +kernel

/-- A chunk of 64 bytes from the module to itself, for its RECV. -/
def ownChunk : Owner × InMsg := (.none, { coll0 with got := [(0, List.replicate 64 7)] })
def ownMod : Mod := { ceMod actCtx [recvOp] with ce := { (ceMod actCtx [recvOp]).ce with own := [ownChunk] } }
theorem witness_CollectiveMessages_own : ownMod.ce.own.find? (fun e => e.2.kind = 0) = some ownChunk ∧ ownChunk.2.src = ownMod.modid
    ∧ ownMod.ce.ops.find? (fun o => o.ctx = ownChunk.2.ctx && o.idx % 65536 = ownChunk.2.idx) = some recvOp ∧ ownChunk.2.digest = recvOp.digest ∧ recvOp.desc.op = 7
    ∧ (ownMod.store .coll ownChunk.2.addr ownChunk.2.data false).2 = none ∧ (ceMod actCtx []).ce.own = [] := by decide +kernel

/-- The conditions of each reset: a release that waits for a router reset, islands that power up, a module that has tripped. -/
theorem witness_PowerAndResets_more :
    (power .on highPins { runs with bootWait := some { slotW := 0#3, linkA := 0, linkB := 0, collA := 0, collB := 0, trainFail := [], calFail := [], bootMs := 0 } }).felt.bootWait.isSome = true
    ∧ (power .powering highPins runs).pwr.st = .powering ∧ (power .powering highPins runs).host.evNow = [] ∧ (power .tripped {} runs).pwr.st = .tripped ∧ (power .on highPins runs).crst = false
    ∧ ({ power .on highPins runs with crst := true } : Mod).crst = true ∧ runs.bootWait = none := by decide

theorem witness_Dependability_home : (labWith id).core.homeSlot 0 = 0 := by decide +kernel
theorem witness_FrameAndTime_requests : (feltMod { runs with requests := [.mgmt 1 (List.replicate 72 0)] } {}).felt.requests = [.mgmt 1 (List.replicate 72 0)] ∧ (List.replicate 72 0).length = 72 ∧ (feltMod runs { started := true }).dep.slots.length = 312 :=
  ⟨rfl, rfl, by show ((List.replicate 312 ({ st := .reserve } : SlotDep)).set 0 { st := .active }).length = 312; rw [List.length_set, List.length_replicate]⟩
theorem witness_Registers_halves : (∃ r, regRow .dsp 0x10C = some r ∧ r.acc = .cfg) ∧ 0x108 % 8 = 0 ∧ pageBlk pgGlobal = some (.mg, 0) ∧ (labWith id).core.lgBase + 128 ≤ (labWith id).core.memTop
    ∧ (labWith id).core.firstPoison (labWith id).core.lgBase 128 = none := ⟨⟨_, rfl, by decide⟩, by decide, by decide, by decide, by decide⟩
theorem witness_HostPort_more : (hostMod {} {}).host.bar2 = 128 ∧ badCompletion 0x4000 = true ∧ badCompletion 0x1000 = false ∧ 16 ∈ [1, 2, 4, 8, 16] := by decide

/-! Ledger, ROW consumers, reserved codes -/

/-- A module with one ledger entry at 0, empty but for its target ZF8. -/
def ledMod (m : Mod) : Mod := { m with mem := (79, 3#8) :: m.mem, regs := [(pgLog * 4096 + 0x208, 1)] }
/-- What opening that entry for step 0 gives. -/
def ledSeen : LedgerSeen := match ledgerOpen (LEntry.ofBytes ((ledMod (labMod {})).bytesAt 0 128)) 0 .zf8 with
  | .ok e f w b => ⟨e, f, w, b⟩
  | .skew => ⟨LEntry.ofBytes [], false, 0, false⟩

theorem led_opens (m : Mod) (hr : m.reg pgLog 0x208 = 1) (ha : m.ledgerAddr 0 = 0) (ht : 128 ≤ m.memTop ∧ m.memTop ≤ 0x28000000000) (hp : m.firstPoison 0 128 = none) (hs : ∀ i ∈ m.stks, i.st ≠ .failed)
    (hq : m.isProt 0 = false) (hb : m.bytesAt 0 128 = (ledMod (labMod {})).bytesAt 0 128) : State.LedgerOpens ⟨m, []⟩ 0 0 .zf8 ledSeen := by
  refine ⟨?_, ?_, ?_, fun i hi => ?_, fun i hi => ?_, ?_, ?_⟩
  · show 0 < m.reg pgLog 0x208
    omega
  · show m.ledgerAddr 0 + 128 ≤ m.memTop ∧ _
    rw [ha]; exact ⟨by omega, ht.2⟩
  · show m.firstPoison (m.ledgerAddr 0) 128 = none
    rw [ha, hp]
  · show m.inFailed (m.ledgerAddr 0 + i) = false
    unfold Mod.inFailed
    rw [if_neg]
    intro h
    rw [Bool.and_eq_true, List.any_eq_true] at h
    obtain ⟨⟨x, hx, hf⟩, -⟩ := h
    exact hs x hx (of_decide_eq_true hf)
  · show m.isProt ((m.ledgerAddr 0 + i) / 65536) = true → _
    rw [ha, show (0 + i) / 65536 = 0 by omega, hq]
    exact fun h => nomatch h
  · show (LEntry.ofBytes (m.bytesAt (m.ledgerAddr 0) 128)).tgt % 32 = _
    rw [ha, hb]; decide +kernel
  · show ledgerOpen (LEntry.ofBytes (m.bytesAt (m.ledgerAddr 0) 128)) 0 .zf8 = _
    rw [ha, hb]; rfl

/-- VLDC of a binary32 row under ROW codes at 0. -/
theorem witness_VectorLoads_row : Fmt.ofCode ((fm 0x800#16).mod.toNat % 16) ((fm 0x800#16).mod.getLsbD 4) = some .b32 ∧ (fm 0x800#16).mod.toNat / 2 ^ 10 % 8 = 2
    ∧ (labOf (.vldc 0 (fm 0x800#16)) id).Accepts 0 0 ({ off := 0, n := Fmt.b32.bytes 128, align := 64 } :: scaleAcc 2 0 false) ∧ (labOf (.vldc 0 (fm 0x800#16)) id).Next (.vldc 0 (fm 0x800#16)) 0 0 :=
  ⟨by decide, by decide, accepts_lab _ rfl _ (by decide), next_plain _ (by decide)⟩

/-- VSTC to ZF8 with SMODE 3 and entry 0. -/
def ledgerRow : State := modOf (.vstc 0 (fs 0xC03#16)) id ledMod
theorem witness_VectorConversions_ledger : (fs 0xC03#16).mod.toNat / 2 ^ 10 % 8 = 3 ∧ smodeAllowed .zf8 3 = true ∧ ledgerRow.LedgerOpens 0 0 .zf8 ledSeen ∧ ledSeen.seeded = true ∧ ledgerRow.core.lg.held + 2 ≤ itemCap
    ∧ ledgerRow.memWf ∧ ledgerRow.Accepts 0 0 ({ off := 0, n := Fmt.zf8.bytes 128, align := 64, wr := true } :: (scaleAcc 3 0 true ++ [])) ∧ ledgerRow.Next (.vstc 0 (fs 0xC03#16)) 0 0 :=
  ⟨by decide, by decide, led_opens _ (by decide) (by decide) ⟨by decide, by decide⟩ (no_poison_mod _ rfl rfl _ _) (by decide +kernel) (by decide) (by decide +kernel), by decide +kernel, by decide +kernel, by unfold State.memWf; decide,
    accepts_mod _ rfl rfl rfl rfl _ (by decide), next_mod _ _ (by decide) rfl (lab_length _) rfl ⟨rfl, rfl, rfl, rfl, rfl⟩⟩

/-- An OPT descriptor of one row with all arrays apart and WORK under entry 0 of the ledger; one with the rounding code 6 for MASTER. -/
def optApart : List (Nat × Byte) := [(0, 1#8), (5, 4#8), (9, 8#8), (13, 16#8), (25, 12#8), (33, 20#8), (37, 24#8), (56, 2#8), (57, 3#8), (107, 0x80#8)]
def optLed : State := modOf (.optSgn 0 f0) id (fun m => ledMod (putStore optApart m))
def optBad : State := modOf (.optSgn 0 f0) id (putStore [(0, 1#8), (56, 2#8), (57, 2#8), (58, 6#8), (107, 0x80#8)])
theorem witness_OptimiserRuns_ledger :
    let b := (List.range 128).map (fun i => optLed.byte (esAddr 0 i))
    let l := optAccs .sgn (OptDesc.ofBytes b)
    let apart := fun (a b : Acc) => a.off + a.n ≤ b.off ∨ b.off + b.n ≤ a.off
    optLed.memWf ∧ optLed.Usable 0 0 0 128 64 false ∧ optDescBad .sgn b = none ∧ (OptDesc.ofBytes b).rReserved = none ∧ (OptDesc.ofBytes b).smodeG ≠ 7
    ∧ optLed.core.clipUse (OptDesc.ofBytes b) 0 = .val (OptDesc.ofBytes b).clip ∧ optLed.Accepts 0 0 l ∧ (∀ o ∈ optOuts .sgn (OptDesc.ofBytes b), o.smode = 3 → o.led = 0 ∧ o.tgt = .zf8)
    ∧ ((optOuts .sgn (OptDesc.ofBytes b)).filter (fun o => o.smode = 3)).map OptOut.led = [0] ∧ optLed.LedgerOpens 0 0 .zf8 ledSeen ∧ optLed.core.lg.held + 8 ≤ itemCap ∧ (l.filter (·.wr)).Pairwise apart
    ∧ (∀ a ∈ l, ∀ b ∈ l, a.wr = false → b.wr = true → (a.off = b.off ∧ a.n = b.n) ∨ apart a b) ∧ optLed.Next (.optSgn 0 f0) 0 0 :=
  ⟨by unfold State.memWf; decide, usable_mod _ rfl rfl rfl rfl _ _ _ _ (by decide) (by decide), by decide, by decide, by decide, rfl, accepts_mod _ rfl rfl rfl rfl _ (by decide), by decide, by decide,
    led_opens _ (by decide) (by decide) ⟨by decide, by decide⟩ (no_poison_mod _ rfl rfl _ _) (by decide +kernel) (by decide) (by decide +kernel), by decide +kernel, by decide, by decide,
    next_mod _ _ (by decide) rfl (lab_length _) rfl ⟨rfl, rfl, rfl, rfl, rfl⟩⟩
theorem witness_OptimiserRuns_codes (csrc : Bool) : (OptDesc.ofBytes ((List.range 128).map (fun i => (optLab csrc).byte (esAddr 0 i)))).rReserved = none
    ∧ (let b := (List.range 128).map (fun i => optBad.byte (esAddr 0 i)); optDescBad .sgn b = none ∧ (OptDesc.ofBytes b).rReserved = some 6) ∧ optBad.memWf ∧ optBad.Usable 0 0 0 128 64 false ∧ optBad.core.ptPending 0 = false
    ∧ optBad.Next (.optSgn 0 f0) 0 0 := by
  cases csrc <;> exact ⟨by decide, by decide, by unfold State.memWf; decide, usable_mod _ rfl rfl rfl rfl _ _ _ _ (by decide) (by decide), by decide, next_mod _ _ (by decide) rfl (lab_length _) rfl ⟨rfl, rfl, rfl, rfl, rfl⟩⟩

/-- A drain of ZF8 rows whose blocks take codes from ledger entry 0, with the codes from 0x20000 on. -/
def drainLed : State := modOf (.mdrain 0 md none) (withTile t0) (fun m => ledMod (putStore [(4, 8#8), (8, 3#8), (9, 0x18#8), (18, 2#8), (20, 1#8), (51, 0x80#8)] m))
def drainLedB : List Nat := (List.range 64).map (fun i => drainLed.byte (esAddr 0 (0 + i)))
def drainLedP : DrainPlan := ⟨0, DrainDesc.ofBytes drainLedB, .zf8, .rne, 0, t0, none, none⟩
theorem witness_TileDrains_ledger : (drainLed.eng 0).getTile 0 = some t0 ∧ drainLed.memWf ∧ drainLed.Usable 0 0 0 64 64 false ∧ drainPlan (drainLed.core.iss 0 0) 0 drainLedB 0 t0 none none = .ok drainLedP ∧ drainLedP.d.smode = 3
    ∧ drainLedP.d.rlog = 0 ∧ drainLedP.d.fn = 0 ∧ drainLedP.d.save = 0 ∧ drainLedP.d.smooth = false ∧ drainLed.LedgerOpens drainLedP.d.ledger t0.step .zf8 ledSeen ∧ drainLed.core.lg.held + 2 ≤ itemCap
    ∧ drainLed.Accepts 0 0 ((preAccs t0 ++ (Option.map preAccs none).getD []) ++ drainLedP.accs) ∧ (∀ c ∈ drainLed.core.dep.cls, c = none) ∧ drainLed.Checked 0 t0 ∧ drainLed.Next (.mdrain 0 md none) 0 0 :=
  ⟨rfl, by unfold State.memWf; decide, usable_mod _ rfl rfl rfl rfl _ _ _ _ (by decide) (by decide), rfl, by decide, by decide, by decide, by decide, by decide,
    led_opens _ (by decide) (by decide) ⟨by decide, by decide⟩ (no_poison_mod _ rfl rfl _ _) (by decide +kernel) (by decide) (by decide +kernel), by decide +kernel,
    accepts_mod _ rfl rfl rfl rfl _ (by decide +kernel), by decide, fun _ => by decide +kernel, next_mod _ _ (by decide) rfl (lab_length _) rfl ⟨rfl, rfl, rfl, rfl, rfl⟩⟩

/-- The part that holds leaf 0, which joins a group that engine 1 has drained into. -/
def leadTile : Tile := { t0 with treeLog := 1 }
def otherPart : PtPart := { slot := 1, eng := 1, tile := ptTile, pair := none, desc := drainB, tap := none, at' := 0, pc := 0, seq := 1, ctx := {} }
def openGroup : PtGroup := ⟨(0, 0), 0, 0, 0, [otherPart]⟩
def twoEngines : Task := { oneEngine with desc := { pmask := 1, imask := 3 }, placed := [0, 1], begun := [0, 1] }
def joinLab : State := modOf (.mdrain 0 ptDrain none) (fun e => { withTile leadTile e with task := some (0, 0) })
  (fun m => { putStore drainBytes m with dsp := { m.dsp with tasks := [twoEngines] }, ptGroups := [openGroup] })
def joinP : DrainPlan := ⟨0, DrainDesc.ofBytes drainB, .b32, .rne, 0, leadTile, none, none⟩
def joinPart : PtPart := { slot := 0, eng := 0, tile := leadTile, pair := none, desc := drainB, tap := none, at' := 0, pc := 0, seq := 1, ctx := {}, push := some .none }
theorem busy_join (off n : Nat) (w : Bool) : joinLab.core.storeBusy (joinLab.core.iss 0 0) off n w = false := by
  have hg : joinLab.core.ptGroups = [openGroup] := rfl
  have he : (joinLab.core.eng 0).jobs = [] := rfl
  simp [Mod.storeBusy, Mod.iss, hg, Engine.overlaps, he, openGroup, otherPart]
theorem accepts_join (l : List Acc) (h : ∀ a ∈ l, a.off + a.n ≤ 2 ^ 22 ∧ a.off % a.align = 0) : joinLab.Accepts 0 0 l :=
  ⟨h, fun _ _ => .inr (busy_join _ _ _), fun _ _ => .inr (no_poison_mod _ rfl rfl _ _)⟩
theorem witness_PanelTree_joins : (joinLab.eng 0).getTile 0 = some leadTile ∧ (joinLab.eng 0).mmaOn 0 = false ∧ joinLab.Usable 0 0 0 64 64 false ∧ (List.range 64).map (fun j => joinLab.byte (esAddr 0 (0 + j))) = drainB
    ∧ leadTile.chunkBase < 2 ^ leadTile.seglen ∧ joinLab.core.ptGroups.find? (fun g => decide (g.task = (0, 0)) && g.panel = 0 / 48 && g.tile = 0 && g.ord = 0) = some openGroup
    ∧ drainPlan (joinLab.core.iss 0 0) 0 drainB 0 leadTile none none = .ok joinP ∧ joinLab.Accepts 0 0 ((preAccs leadTile ++ (Option.map preAccs none).getD []) ++ joinP.accs)
    ∧ (∀ r ∈ joinLab.core.drainData (joinLab.core.iss 0 0) joinP, r = none) ∧ joinLab.core.planPush (joinLab.core.iss 0 0) joinP = .ok .none ∧ (∀ r ∈ openGroup.parts, r.agrees joinPart = true)
    ∧ joinLab.core.task? 0 0 = some twoEngines ∧ (twoEngines.inPanel 0).length ≤ 32 ∧ joinLab.Checked 0 leadTile ∧ joinLab.Next (.mdrain 0 ptDrain none) 0 0 ∧ ptLead.push = none ∧ ptLead.pieces = [] :=
  ⟨rfl, by decide, ⟨by decide, by decide, busy_join _ _ _, .inr (no_poison_mod _ rfl rfl _ _)⟩, by decide, by decide, by decide, rfl, accepts_join _ (by decide +kernel), by decide +kernel, by rfl, by decide, by decide, by decide,
    fun _ => by decide +kernel, next_mod _ _ (by decide) rfl (lab_length _) rfl ⟨rfl, rfl, rfl, rfl, rfl⟩, rfl, rfl⟩

/-! Kernels, transfers, seals, the collective engine of two modules -/

theorem witness_KernelsStart_bank : (let e : Engine := { st := .idle }; 1 - e.active < e.im.length ∧ spWf 0#64 (e.im.getD (1 - e.active) []) = true) := by decide

/-- A word of the engine's own store that a path has spoilt, at both ends of a transfer. -/
def spoiltMod (y : Xfer) : State := ⟨{ (moving y).core with poison := [poisonKey (esAddr 0 4194240)], once := [poisonKey (esAddr 0 4194240)] }, []⟩
def getOwn : Xfer := { kind := .get, off := 0, addr := esAddr 0 4194240, len := 64 }
theorem witness_TransfersEnd_spoilt : ((spoiltMod getOwn).core.load (.engine 0) (esAddr 0 4194240) 64).2 = .poisoned (esAddr 0 4194240)
    ∧ (match (spoiltMod getOwn).core.access (.engine 0) (esAddr 0 4194240) with | .ok b => (spoiltMod getOwn).core.spoilt b | .error _ => false) = true
    ∧ (spoiltMod { getX with kind := .put }).core.firstPoison (esAddr 0 4194240) 64 = some (esAddr 0 4194240) ∧ (spoiltMod { getX with kind := .put }).core.spoilt (esAddr 0 4194240) = true := by decide +kernel

/-- SEAL_SNAP while Bus Master Enable is clear. -/
def heldSeal : State := ⟨{ (epLab { st := .idle }).core with host := {} }, []⟩
theorem witness_EpochCommands_held : heldSeal.core.on pgSnap = true ∧ heldSeal.core.outbound = false ∧ heldSeal.core.ep.st = .idle ∧ heldSeal.core.logOn = true ∧ heldSeal.core.lg.stall = false ∧ heldSeal.core.ep.snapActive = false := by decide

/-- Modules 0 and 1 in slice 1, a group of two along W. -/
def inPair (m : Mod) : Mod := { m with regs := [(pgRouter * 4096 + 0x100, 1), (pgRouter * 4096 + 0x110, 0x100), (pgRouter * 4096 + 0x114, 0x100), (pgRouter * 4096 + 0x118, 0x100), (pgRouter * 4096 + 0x11C, 0x200)] }
def pairMod (ops : List CollOp) : Mod := inPair (ceMod actCtx ops)
theorem witness_Operations_pair : let k := (pairMod []).coll 0 { op := 9 }
    k.g = [0, 1] ∧ k.me = 0 ∧ k.nodesIn ≠ [] ∧ dblFrom k.g.length k.me = none ∧ dblFrom 3 2 = some 0 ∧ 0 < (pairMod []).scratchRoom 0 := by decide +kernel
theorem witness_Operations_alone : let k := (ceMod actCtx []).coll 0 { op := 1 }
    k.nodesIn = [] ∧ k.others = [] ∧ (∀ j, j < actCtx.shards → k.hostOf j = k.me) := by decide +kernel

/-- The first chunk of a broadcast of two from module 1; the partial sum of module 1 in the scratch granted for it. -/
def bcastMsg : InMsg := { coll0 with src := 1, arg := 0xFFFF * 2 ^ 48, got := [(0, [7])], put := [0] }
def bcastOp : CollOp := { ctx := 0, idx := 0, desc := { op := 5, count := 8192, root := 1 }, digest := 0, start := 0 }
def sumMsg : InMsg := { coll0 with src := 1, addr := 65536, got := [(0, List.replicate 96 0)], put := [0] }
def sumOp : CollOp := { ctx := 0, idx := 0, desc := { op := 9, count := 1, dst := 0x30000 }, digest := 0, start := 0, granted := [(⟨1, 1, 0, 0⟩, 65536)] }
theorem witness_CollectiveMessages_final : (pairMod [bcastOp]).ce.ops.find? (fun o => o.ctx = bcastMsg.ctx && o.idx % 65536 = bcastMsg.idx) = some bcastOp ∧ bcastMsg.digest = bcastOp.digest ∧ bcastMsg.node = 0xFFFF ∧ bcastOp.desc.copying = true
    ∧ (∀ g ∈ bcastMsg.got, g.1 ∈ bcastMsg.put) ∧ ({ bcastOp with finals := [⟨(pairMod [bcastOp]).coll 0 bcastOp.desc |>.originOf bcastMsg, 0xFFFF, bcastMsg.addr, bcastMsg.data⟩] } : CollOp).copyWrites ((pairMod [bcastOp]).coll 0 bcastOp.desc) = none := by
  decide +kernel
theorem witness_CollectiveMessages_sum : let k := (pairMod [sumOp]).coll 0 sumOp.desc
    (pairMod [sumOp]).ce.ops.find? (fun o => o.ctx = sumMsg.ctx && o.idx % 65536 = sumMsg.idx) = some sumOp ∧ sumMsg.digest = sumOp.digest ∧ sumMsg.node ≠ 0xFFFF ∧ sumMsg.node ≠ 0xFFFE ∧ sumOp.desc.exact = true
    ∧ sumOp.granted.find? (fun g => (sumOp.places k).contains g.2 && g.2 = sumMsg.addr && !sumOp.nodes.any (fun n => n.1 = g.1)) = some (⟨1, 1, 0, 0⟩, 65536) ∧ k.g.length = 2 ∧ k.me = 0
    ∧ ((pairMod [sumOp]).store .coll sumOp.desc.dst ({} : LongAcc).bytes false).2 = none ∧ sumOp.groupSum k = none := by decide +kernel
/-- A module that is shut, as one in forward-only mode is. -/
theorem witness_CollectiveMessages_shut : ({ hearing 0 actCtx [] coll0 with pwr := { st := .fwdOnly }, fwdOnly := true } : Mod).shut = true ∧ ({ hearing 0 actCtx [] coll0 with crst := true } : Mod).crst = true := by decide

/-- A data packet for a RECV that has been read. -/
def collPkt : Packet := { pkt 0 true with type := 6, slice := 1, addr := 0x30000, payload := List.replicate 64 7 }
def collHolding : Mod := { pairMod [recvOp] with ports := List.replicate 18 { st := .up } ++ [{ st := .up, buf := [⟨collPkt, 1000000⟩] }] }
theorem witness_Packets_coll :
    let q := collHolding.rephase collPkt
    let x : InMsg := { src := q.src, seq := q.seq, inc := q.inc, type := q.type, addr := q.addr, arg := q.arg, cnt := 1, slice := q.slice, dup := (collHolding.dupOf q.src q.inc).has q.seq, got := [(0, q.payload)] }
    formOk collHolding = true ∧ collHolding.rtOn = true ∧ collHolding.native collPkt = true ∧ collHolding.refuses q = 0 ∧ q.dst = collHolding.modid ∧ q.crcOk = true ∧ q.cnt = 1 ∧ q.idx < q.cnt ∧ x.dup = false
    ∧ (collHolding.ce.ops.find? (fun o => o.ctx = x.ctx && o.idx % 65536 = x.idx)).bind (·.putAt x) = some 0x30000 ∧ 0x30000 + q.payload.length ≤ collHolding.memTop ∧ collHolding.isProt (0x30000 / 65536) = false := by
  decide +kernel

/-- The vote of modules 0 and 1 as module 0 has it, with what module 1 sent: the same step, another step; a health word of its own. -/
def voteMod (step : Nat) (sh word : W32) : Mod :=
  { inPair (epLab {}).core with ep := { st := .opened, contributed := true, sh, votes := [{ src := 1, ord := 0, kind := 1, lvl := 1, word, upd := 1, step, epoch := 0 }] } }
theorem witness_EpochVote_pair : formOk (voteMod 0 0#32 0#32) = true ∧ (voteMod 0 0#32 0#32).voters = [0, 1]
    ∧ (voteMod 0 0#32 0#32).voteResult 1 = some { src := 0, ord := 0, kind := 1, word := 0#32, upd := 2, step := 0, epoch := 0 }
    ∧ (voteMod 5 0#32 0#32).voteResult 1 = some { src := 0, ord := 0, kind := 1, word := 0#32, upd := 2, skew := true, step := 0, epoch := 0 }
    ∧ ((voteMod 0 0#32 1#32).voteResult 1).map (·.word) = some 1#32 ∧ (voteMod 0 0#32 0#32).voteAt 1 dblTop = (voteMod 0 0#32 0#32).voteResult 1 ∧ (voteMod 0 0#32 0#32).voteOuts = [(1, 1)]
    ∧ ((voteMod 0 0#32 0#32).voteAt 1 1).isSome = true := by decide +kernel

/-! Frames, time, power -/

/-- Module 1 in a frame, with the Calico page disabled or enabled. -/
def frameMod (cal : Bool) (time : Nat) (cls : List (Option Cls)) : Mod :=
  { feltMod runs { started := true } with modid := 1, time, pages := if cal then [(pgCal, onPage)] else [], lmap := List.replicate 288 {}, dep := { slots := (List.replicate 312 {}).set 1 { st := .reserve }, cls := cls ++ List.replicate (16 - cls.length) none } }
/-- No tests and no classification; a classification that has aged; a reserve whose test is due, and one whose test is missed. -/
theorem witness_FrameAndTime_calm : formOk (frameMod false 1000000 []) = true ∧ (frameMod false 1000000 []).on pgCal = false ∧ (∀ c ∈ (frameMod false 1000000 []).dep.cls, c = none) ∧ (frameMod false 1000000 []).modid ≠ 0
    ∧ (frameMod false 1000000 []).mt.seen = none ∧ (frameMod false 1000000 []).powered = true ∧ (frameMod false 1000000 []).felt.requests = [] ∧ (frameMod false 1000000 []).felt.updates = [] ∧ ({} : FrameFacts).late = none := by decide
theorem witness_FrameAndTime_class : (frameMod false 200000000000 [some ⟨⟨0, 0, 0, 0, 0⟩, 1, 1, 0, 0⟩]).dep.cls.getD 0 none = some ⟨⟨0, 0, 0, 0, 0⟩, 1, 1, 0, 0⟩
    ∧ 0 + (frameMod false 200000000000 []).fld pgCal 0x104 24 8 * secNs < 200000000000 ∧ ∀ j, j ≠ 0 → (frameMod false 200000000000 [some ⟨⟨0, 0, 0, 0, 0⟩, 1, 1, 0, 0⟩]).dep.cls.getD j none = none := by
  refine ⟨rfl, by decide, fun j hj => ?_⟩
  show (some (Cls.mk _ _ _ _ _) :: List.replicate 15 none).getD j none = none
  cases j with
  | zero => exact absurd rfl hj
  | succ j =>
    rw [List.getD_cons_succ, List.getD_eq_getElem?_getD, List.getElem?_replicate]
    split <;> rfl

theorem frame_slot (time j : Nat) (hj : j ≠ 1) : (frameMod true time []).slot j = {} := by
  show ((List.replicate 312 ({} : SlotDep)).set 1 { st := .reserve }).getD j {} = {}
  rw [List.getD_eq_getElem?_getD, List.getElem?_set_ne (by omega), List.getElem?_replicate]
  split <;> rfl
theorem witness_FrameAndTime_due (time : Nat) : (∀ j, j ≠ 1 → time < ((frameMod true time []).slot j).due ∨ ((frameMod true time []).slot j).st ∉ [.active, .reserve])
    ∧ (∀ a j, (frameMod true time []).slotOf a = some j → ((frameMod true time []).slot j).st ≠ .fenced ∧ ∀ b, (frameMod true time []).slotOf b = some j → a = b)
    ∧ ∀ d ∈ (frameMod true time []).dep.slots, d.st ≠ .trial ∧ d.lentTo = none ∧ d.testWaits = false ∧ d.fencePend = none := by
  refine ⟨fun j hj => .inr (by rw [frame_slot time j hj]; decide), fun a j h => ?_, fun d hd => ?_⟩
  · unfold Mod.slotOf at h
    rw [show (frameMod true time []).lmap = List.replicate 288 {} from rfl, List.getD_eq_getElem?_getD, List.getElem?_replicate] at h
    split at h <;> simp_all
  · rcases List.mem_or_eq_of_mem_set hd with hd | rfl
    · rw [List.eq_of_mem_replicate hd]; decide
    · decide
theorem witness_FrameAndTime_due_values : (frameMod true 1000000 []).on pgCal = true ∧ (frameMod true 1000000 []).flag pgCal 0x100 0 = true ∧ ((frameMod true 1000000 []).slot 1) = { st := .reserve } ∧ (frameMod true 1000000 []).logicalOf 1 = 0x1FF
    ∧ 1000000 ≤ 0 + (frameMod true 1000000 []).fld pgCal 0x100 16 8 * 60 * secNs ∧ 0 + (frameMod true 1000000 []).fld pgCal 0x100 16 8 * 60 * secNs < 2000000000000 ∧ (frameMod true 1000000 []).testRoom 0 = true
    ∧ (frameMod true 1000000 []).flag pgCal 0x104 7 = false := by decide +kernel

/-- A tick master whose parent port, named in MT_CTRL, is UP; the master of the root with and without an edge behind it. -/
def masterMod (mt : TimeSt) : Mod := { portMod { st := .up } with modid := 1, felt := runs, mt, regs := [(pgFelt * 4096 + 0x110, 1), (pgTime * 4096 + 0x11C, 0x32)] }
theorem witness_FrameAndTime_master : formOk (masterMod {}) = true ∧ (masterMod {}).tickMaster = true ∧ (masterMod {}).parentPort = some 18 ∧ ((masterMod {}).port 18).st = .up
    ∧ (masterMod { started := true, seen := some 7 }).mt.seen = some 7 ∧ (masterMod { started := true, lastTick := some 0 }).mt.lastTick = some 0 ∧ (masterMod { started := true }).mt.lastTick = none
    ∧ (masterMod { started := true, locked := true }).mt.locked = true := by decide

/-- A load below the floor: an awake idle engine at hand; none awake and one asleep. -/
def loadMod (st : EState) : Mod := { labMod { st } with pwr := { st := .on, floorW := 500, capW := 5200 } }
theorem witness_FrameAndTime_limiter : (0 : Nat) < max (500 * 1000000) 0 ∧ max (500 * 1000000) 0 ≤ 5200 * 1000000 ∧ (List.range 312).filter (fun k => ((loadMod .idle).eng k).st = .idle && ((loadMod .idle).eng k).task.isNone) = [0]
    ∧ (List.range 312).find? (fun k => ((loadMod .idle).eng k).st = .sleep && ((loadMod .idle).slot k).st = .active) = none
    ∧ (List.range 312).filter (fun k => ((loadMod .sleep).eng k).st = .idle && ((loadMod .sleep).eng k).task.isNone) = []
    ∧ (List.range 312).find? (fun k => ((loadMod .sleep).eng k).st = .sleep && ((loadMod .sleep).slot k).st = .active) = some 0 ∧ (loadMod .sleep).on pgDsp = true := by decide +kernel
/-- A census report lies in module memory; the leader of board 0 with no report yet, and with all of them. -/
theorem witness_FrameAndTime_census : regionOf ((feltMod runs {}).reg64 pgFelt 0x130 0x134 + 32 * 0) ≠ .regs ∧ (feltMod { runs with leader := some 0 } {}).childBoards ≠ []
    ∧ (∃ b ∈ (feltMod { runs with leader := some 0 } {}).childBoards, b ∉ (feltMod { runs with leader := some 0 } {}).felt.reports)
    ∧ (let r := (feltMod runs {}).childBoards; let m := feltMod { runs with leader := some 0, reports := r } {}; ∀ b ∈ m.childBoards, b ∈ m.felt.reports) ∧ (feltMod { runs with heard := [0, 1] } {}).felt.heard.foldl min 8 = 0 := by
  refine ⟨by decide, by decide, ?_, fun _ h => h, by decide⟩
  refine ⟨(feltMod { runs with leader := some 0 } {}).childBoards.headD 0, by decide, by decide⟩

/-- A cold reset with both images good, with the second alone, and with neither; a link in L0; outbound work with Bus Master Enable set. -/
theorem witness_PowerAndResets_host : (power .on highPins { runs with flashA := [1], auth := (0, 0) }).felt.auth = (0, 0) ∧ ({ power .on highPins runs with host := { rate := 6, width := 16, bme := true, msixPend := [3] } } : Mod).host.rate ≠ 0
    ∧ ({ power .on highPins runs with host := { rate := 6, width := 16, bme := true, msixPend := [3] } } : Mod).outWork ≠ 0 ∧ (power .on highPins { runs with linkHalt := true, stage := .halted }).felt.linkHalt = true
    ∧ (power .on highPins { runs with stage := .halted }).shut = true := by decide

/-- An engine's page awake and asleep; a page of a slot that is off. -/
def engPage (st : EState) : State := lab { st }
theorem witness_Registers_engines : (engPage .idle).Open (pgSlot 0) ∧ (engPage .sleep).Open (pgSlot 0) ∧ ((engPage .sleep).eng 0).st = .sleep ∧ ((engPage .idle).eng (slotOfInst 0)).st ≠ .sleep ∧ (∃ i, pageBlk (pgSlot 0) = some (.engine, i)) :=
  ⟨⟨rfl, by rfl, by rfl⟩, ⟨rfl, by rfl, by rfl⟩, rfl, by decide, ⟨_, rfl⟩⟩
theorem witness_Registers_shadow : (labMod { st := .off }).reachable (pgSlot 0) = true ∧ (labMod { st := .off }).shadow (pgSlot 0) = true ∧ (labMod { st := .off }).host.d3 = false ∧ ((labMod { st := .off }).page (pgSlot 0)).offSaid = false := by
  decide

/-- A request over MCTP in a frame; recovery; the first and last words of BAR4's table and of its pending bits. -/
def mctpMod : Mod := { Mod.reset with felt := { running := true, requests := [.census] } }
theorem witness_HostPort_frame : (mctpMod.frameWork {}).felt.requests = [.census] ∧ (mctpMod.frameWork {}).felt.updates = [] ∧ (mctpMod.frameWork {}).felt.again = [] ∧ formOk mctpMod = true
    ∧ (feltMod { stage := .rom } {}).felt.running = false ∧ (feltMod { stage := .rom } {}).felt.fwWriting ≠ some 0 ∧ (feltMod { stage := .rom, fwWriting := some 0 } {}).felt.fwWriting = some (b2n false)
    ∧ (∃ b i, pageBlk pgPwr = some (b, i) ∧ b ≠ .engine) ∧ (mctpMod.frameWork {}).reachable pgPwr = true :=
  ⟨by decide +kernel, by decide +kernel, by decide +kernel, by decide, rfl, by decide, rfl, ⟨_, _, rfl, by decide⟩, by decide +kernel⟩
theorem witness_HostPort_bar4 : 0x4000 * 4096 + 0 = 0x4000000 + 0 ∧ 0x4007 * 4096 + 0xFF8 = 0x4000000 + 0x7FF8 ∧ 0x4008 * 4096 + 0xFC = 0x4000000 + 0x80FC ∧ (hostMod {} {}).host.d3 = false ∧ spWf 0 ({} : HostIf).bar4 = true := by decide
end Sys2Proof.Tests
end

section
/-! PROOF. The reductions over the lanes of a vector register (R121, R221): what a reduction unit sees of a register, and the scalar each reduction writes. -/
namespace Sys2Proof.Machine

/-- The lanes of a vector register, each with whether it is active, as a reduction takes them (R205). -/
def Engine.taggedLanes (e : Engine) (f : RFmt) : List (Bool × W32) :=
  (e.getV f.a.toNat).zipIdx.map (fun p => (e.laneOn f p.2, p.1))

/-- The active lanes of a vector register in the order of their index. -/
def Engine.lanesOn (e : Engine) (f : RFmt) : List W32 :=
  ((e.getV f.a.toNat).zipIdx.filter (fun p => e.laneOn f p.2)).map (·.1)

theorem Engine.lanesOn_eq_tagged (e : Engine) (f : RFmt) :
    e.lanesOn f = ((e.taggedLanes f).filter (·.1)).map (·.2) := by
  rw [Engine.lanesOn, Engine.taggedLanes, List.filter_map, List.map_map]; rfl

/-- A fold that passes over inactive lanes is a fold over the active ones. -/
theorem Engine.foldl_taggedLanes {α : Type} (e : Engine) (f : RFmt) (g : α → W32 → α) (a : α) :
    (e.taggedLanes f).foldl (fun r x => if x.1 then g r x.2 else r) a = (e.lanesOn f).foldl g a := by
  rw [e.lanesOn_eq_tagged, List.foldl_map, List.foldl_filter]

/-- Inactive lanes add 0 to an integer sum. -/
theorem Engine.sum_taggedLanes (e : Engine) (f : RFmt) :
    ((e.taggedLanes f).map (fun x => if x.1 then x.2.toInt else 0)).sum = ((e.lanesOn f).map BitVec.toInt).sum := by
  rw [e.lanesOn_eq_tagged]
  induction e.taggedLanes f with
  | nil => rfl
  | cons x l ih =>
    rcases x with ⟨_ | _, w⟩
    · exact (Int.zero_add _).trans ih
    · exact congrArg (w.toInt + ·) ih

/-- Counting the active lanes of a class. -/
theorem Engine.count_taggedLanes (e : Engine) (f : RFmt) (c : Val → Bool) :
    ((e.taggedLanes f).filter (fun x => x.1 && c (b32 x.2))).length = ((e.lanesOn f).filter (fun w => c (b32 w))).length := by
  rw [e.lanesOn_eq_tagged, List.filter_map, List.length_map, List.filter_filter]
  simp only [Function.comp_apply, Bool.and_comm]

/-- A reduction that issues writes its value over the tagged lanes to the scalar register, and changes nothing else but the pc and the loops. -/
theorem exec_vecRed {s : State} {n k : Nat} {c : Instr} {w : EngWord} {f : RFmt} {red : List (Bool × W32) → W64} {v : W64} (hp : predOk f) (hd : isS f.d)
    (hw : c.word = some w) (he : exec c s = run (fun m => m.issue n w (fun m x => vecRed m x f red)) s)
    (hv : red ((s.eng k).taggedLanes f) = v) (h : s.Next c n k) : exec c s = .next (s.wroteS k f.d v) := by
  have hok : (penOk f && RKind.s.ok f.d) = true := by rw [penOk_of f hp, (isS_ok f.d).2 hd]; rfl
  refine exec_next s n k c w _ _ h hw he ?_
  rw [vecRed, if_pos hok, ← hv]
  exact settle_putS s k n h.running.exists_ f.d _

section
variable {s : State} {n k : Nat} {f : RFmt}

theorem exec_vredAdd (hp : predOk f) (hd : isS f.d) (h : s.Next (.vredAdd n f) n k) : exec (.vredAdd n f) s =
    .next (s.wroteS k f.d (b32s (treeRoot (addB32 .rne) 7 (((s.eng k).taggedLanes f).map (fun x => if x.1 then b32 x.2 else Val.zero))))) :=
  exec_vecRed hp hd rfl rfl rfl h

theorem exec_vredMax (hp : predOk f) (hd : isS f.d) (h : s.Next (.vredMax n f) n k) : exec (.vredMax n f) s =
    .next (s.wroteS k f.d (b32s ((((s.eng k).lanesOn f).map b32).foldl Val.maximum (.inf true)))) :=
  exec_vecRed hp hd rfl rfl (by rw [List.foldl_map, ← Engine.foldl_taggedLanes]) h

theorem exec_vredMin (hp : predOk f) (hd : isS f.d) (h : s.Next (.vredMin n f) n k) : exec (.vredMin n f) s =
    .next (s.wroteS k f.d (b32s ((((s.eng k).lanesOn f).map b32).foldl Val.minimum (.inf false)))) :=
  exec_vecRed hp hd rfl rfl (by rw [List.foldl_map, ← Engine.foldl_taggedLanes]) h

theorem exec_vredAddi (hp : predOk f) (hd : isS f.d) (h : s.Next (.vredAddi n f) n k) : exec (.vredAddi n f) s =
    .next (s.wroteS k f.d (BitVec.ofInt 64 (((s.eng k).lanesOn f).map BitVec.toInt).sum)) :=
  exec_vecRed hp hd rfl rfl (by rw [← Engine.sum_taggedLanes]) h

/-- VRED.CNT under a FUNC that names a class. -/
theorem exec_vredCnt {cls : Val → Bool} (hc : cntClass f.func.toNat = some cls) (hp : predOk f) (hd : isS f.d) (h : s.Next (.vredCnt n f) n k) :
    exec (.vredCnt n f) s = .next (s.wroteS k f.d (BitVec.ofNat 64 (((s.eng k).lanesOn f).filter (fun w => cls (b32 w))).length)) := by
  have he : exec (.vredCnt n f) s = execVredCnt n f s := rfl
  simp only [execVredCnt, hc] at he
  exact exec_vecRed hp hd rfl he (by rw [← Engine.count_taggedLanes]) h

end

/-- Settles O15: one lemma for each reduction; VRED.ADD takes an inactive lane as +0 in its place, the others pass over it. -/
theorem vectorReductions : Obligations.VectorReductions := by
  intro s n k f hp hd e all on gives counts
  have count (func : Nat) (cls : Val → Bool) (hc : cntClass func = some cls) : counts func cls :=
    fun hf => exec_vredCnt (hf ▸ hc) hp hd
  have hall : all.map (fun p => if e.laneOn f p.2 then b32 p.1 else Val.zero) = (e.taggedLanes f).map (fun x => if x.1 then b32 x.2 else Val.zero) := by
    rw [Engine.taggedLanes, List.map_map]; rfl
  exact ⟨fun h => hall ▸ exec_vredAdd hp hd h, exec_vredMax hp hd, exec_vredMin hp hd, exec_vredAddi hp hd,
    count 0 Val.isNan rfl, count 1 Val.isInf rfl, count 2 (fun v => !v.isFinite) rfl, count 3 (fun v => !v.isZero) rfl⟩

end Sys2Proof.Machine
end

section
/-! PROOF. Long accumulators (R122 to R125): what a term and a combination do to each field, that terms commute, and that a combination passes through terms. -/
namespace Sys2Proof.Machine

/-! The 640-bit value -/

theorem wrap640_add_wrap640 (x y : Int) : wrap640 (x + wrap640 y) = wrap640 (x + y) := by
  have h : x + ((y + 2 ^ 639) % 2 ^ 640 - 2 ^ 639) + 2 ^ 639 = x + (y + 2 ^ 639) % 2 ^ 640 := by rw [Int.add_assoc, Int.sub_add_cancel]
  rw [wrap640, wrap640, wrap640, h, Int.add_emod_emod, Int.add_assoc]

theorem wrap640_wrap640_add (x y : Int) : wrap640 (wrap640 x + y) = wrap640 (x + y) := by
  rw [Int.add_comm, wrap640_add_wrap640, Int.add_comm]

/-! Each field after a term and after a combination -/

/-- N has reached its bound exactly where it would pass it (R125). -/
theorem min_beq_right (n m : Nat) : (min n m == m) = decide (m ≤ n) := by
  rw [Bool.eq_iff_iff, beq_iff_eq, decide_eq_true_eq]; omega

@[ext] theorem LongAcc.ext_fields {a b : LongAcc} (hv : a.v = b.v) (hn : a.n = b.n) (hnan : a.nan = b.nan) (hp : a.pinf = b.pinf)
    (hm : a.ninf = b.ninf) (ho : a.ovf = b.ovf) : a = b := by
  cases a; cases b
  cases hv; cases hn; cases hnan; cases hp; cases hm; cases ho
  rfl

/-- What a term adds to V, in units of 2^-320; only a finite one adds anything (R123). -/
def Val.units : Val → Int
  | .fin n m e => if m = 0 then 0 else sigAt n m e (-320)
  | _ => 0

@[simp] theorem LongAcc.addVal_v (a : LongAcc) (t : Val) : (a.addVal t).v = if t.isFinite then wrap640 (a.v + t.units) else a.v := by
  rcases t with _ | (_ | _) | _ <;> rfl

@[simp] theorem LongAcc.addVal_n (a : LongAcc) (t : Val) : (a.addVal t).n = min (a.n + 1) (2 ^ 63) := by
  rcases t with _ | (_ | _) | _ <;> rfl

@[simp] theorem LongAcc.addVal_nan (a : LongAcc) (t : Val) : (a.addVal t).nan = (a.nan || t.isNan) := by
  rcases t with _ | (_ | _) | _
  · exact (Bool.or_true _).symm
  all_goals exact (Bool.or_false _).symm

@[simp] theorem LongAcc.addVal_pinf (a : LongAcc) (t : Val) : (a.addVal t).pinf = (a.pinf || t == .inf false) := by
  rcases t with _ | (_ | _) | _
  case inf.false => exact (Bool.or_true _).symm
  all_goals exact (Bool.or_false _).symm

@[simp] theorem LongAcc.addVal_ninf (a : LongAcc) (t : Val) : (a.addVal t).ninf = (a.ninf || t == .inf true) := by
  rcases t with _ | (_ | _) | _
  case inf.true => exact (Bool.or_true _).symm
  all_goals exact (Bool.or_false _).symm

@[simp] theorem LongAcc.addVal_ovf (a : LongAcc) (t : Val) : (a.addVal t).ovf = (a.ovf || decide (2 ^ 63 ≤ a.n + 1)) := by
  rw [← min_beq_right]
  rcases t with _ | (_ | _) | _ <;> rfl

@[simp] theorem LongAcc.combine_v (a b : LongAcc) : (a.combine b).v = wrap640 (a.v + b.v) := rfl
@[simp] theorem LongAcc.combine_n (a b : LongAcc) : (a.combine b).n = min (a.n + b.n) (2 ^ 63) := rfl
@[simp] theorem LongAcc.combine_nan (a b : LongAcc) : (a.combine b).nan = (a.nan || b.nan) := rfl
@[simp] theorem LongAcc.combine_pinf (a b : LongAcc) : (a.combine b).pinf = (a.pinf || b.pinf) := rfl
@[simp] theorem LongAcc.combine_ninf (a b : LongAcc) : (a.combine b).ninf = (a.ninf || b.ninf) := rfl

@[simp] theorem LongAcc.combine_ovf (a b : LongAcc) : (a.combine b).ovf = (a.ovf || b.ovf || decide (2 ^ 63 ≤ a.n + b.n)) := by
  rw [← min_beq_right]; rfl

/-! The order of terms and of combinations -/

/-- Two terms may change places. -/
theorem LongAcc.addVal_comm (a : LongAcc) (t u : Val) : (a.addVal t).addVal u = (a.addVal u).addVal t := by
  ext1
  case hv =>
    simp only [addVal_v]
    split <;> split <;> simp only [wrap640_wrap640_add, Int.add_right_comm]
  case hn => simp only [addVal_n]
  case hnan => simp only [addVal_nan, Bool.or_right_comm]
  case hp => simp only [addVal_pinf, Bool.or_right_comm]
  case hm => simp only [addVal_ninf, Bool.or_right_comm]
  case ho => simp only [addVal_ovf, addVal_n]

/-- A sum depends only on its set of terms (R124). -/
theorem LongAcc.foldl_addVal_perm {l r : List Val} (h : l.Perm r) (a : LongAcc) : l.foldl LongAcc.addVal a = r.foldl LongAcc.addVal a :=
  h.foldl_eq' (fun t _ u _ z => z.addVal_comm t u) a

theorem LongAcc.combine_comm (a b : LongAcc) : a.combine b = b.combine a := by
  ext1 <;> simp only [combine_v, combine_n, combine_nan, combine_pinf, combine_ninf, combine_ovf, Int.add_comm, Nat.add_comm, Bool.or_comm]

/-- A term added before a combination or after it. -/
theorem LongAcc.combine_addVal (a b : LongAcc) (t : Val) : (a.combine b).addVal t = a.combine (b.addVal t) := by
  have hfull : (decide (2 ^ 63 ≤ a.n + b.n) || decide (2 ^ 63 ≤ min (a.n + b.n) (2 ^ 63) + 1))
      = (decide (2 ^ 63 ≤ b.n + 1) || decide (2 ^ 63 ≤ a.n + min (b.n + 1) (2 ^ 63))) := by
    rw [← Bool.decide_or, ← Bool.decide_or, decide_eq_decide]; omega
  ext1
  case hv =>
    simp only [addVal_v, combine_v]
    split
    · rw [wrap640_wrap640_add, wrap640_add_wrap640, Int.add_assoc]
    · rfl
  case hn => simp only [addVal_n, combine_n]; omega
  case hnan => simp only [addVal_nan, combine_nan, Bool.or_assoc]
  case hp => simp only [addVal_pinf, combine_pinf, Bool.or_assoc]
  case hm => simp only [addVal_ninf, combine_ninf, Bool.or_assoc]
  case ho =>
    rw [addVal_ovf, combine_ovf, combine_n, combine_ovf, addVal_ovf, addVal_n, Bool.or_assoc, hfull]
    simp only [Bool.or_assoc]

/-- Terms added before a combination or after it. -/
theorem LongAcc.combine_foldl_addVal (a b : LongAcc) (l : List Val) : a.combine (l.foldl LongAcc.addVal b) = l.foldl LongAcc.addVal (a.combine b) :=
  (List.foldl_hom a.combine (fun x t => a.combine_addVal x t)).symm

/-- The empty accumulator changes nothing in one whose V has 640 bits and whose OVF agrees with N (R122, R125). -/
theorem LongAcc.combine_empty (a : LongAcc) (hn : a.n ≤ 2 ^ 63) (ho : a.n = 2 ^ 63 → a.ovf = true) (hv : wrap640 a.v = a.v) : a.combine {} = a := by
  have hovf : (a.ovf || decide (2 ^ 63 ≤ a.n)) = a.ovf := by
    by_cases h : 2 ^ 63 ≤ a.n
    · rw [ho (Nat.le_antisymm hn h), Bool.true_or]
    · rw [decide_eq_false h, Bool.or_false]
  ext1
  case hv => rw [combine_v, Int.add_zero, hv]
  case hn => rw [combine_n, Nat.add_zero, Nat.min_eq_left hn]
  case hnan => rw [combine_nan, Bool.or_false]
  case hp => rw [combine_pinf, Bool.or_false]
  case hm => rw [combine_ninf, Bool.or_false]
  case ho => rw [combine_ovf, Bool.or_false, Nat.add_zero, hovf]

/-- Terms summed apart and combined are terms summed together: the right half moves through the combination, then the left half does. -/
theorem LongAcc.combine_foldl_empty {a : LongAcc} (h : a.combine {} = a) (l r : List Val) :
    (l.foldl LongAcc.addVal a).combine (r.foldl LongAcc.addVal {}) = (l ++ r).foldl LongAcc.addVal a := by
  calc (l.foldl LongAcc.addVal a).combine (r.foldl LongAcc.addVal {})
      = r.foldl LongAcc.addVal ((l.foldl LongAcc.addVal a).combine {}) := LongAcc.combine_foldl_addVal _ _ r
    _ = r.foldl LongAcc.addVal (l.foldl LongAcc.addVal (({} : LongAcc).combine a)) := by
        rw [LongAcc.combine_comm, LongAcc.combine_foldl_addVal]
    _ = (l ++ r).foldl LongAcc.addVal a := by rw [LongAcc.combine_comm, h, List.foldl_append]

/-- Settles O19: by the fields of a combination, the commutation of terms, and the passage of terms through a combination. -/
theorem longSumOrder : Obligations.LongSumOrder := by
  refine ⟨?_, fun a l r h => LongAcc.foldl_addVal_perm h a, fun a l r hn ho hv => LongAcc.combine_foldl_empty (a.combine_empty hn ho hv) l r⟩
  intro a b
  exact ⟨a.combine_v b, a.combine_n b, a.combine_nan b, a.combine_pinf b, a.combine_ninf b, a.combine_ovf b⟩

end Sys2Proof.Machine
end

section
/-! PROOF. Scalar registers (R166, R203): a field that names none is refused, s0 reads as 0 and takes nothing, every other register reads as it was last written. -/
namespace Sys2Proof.Machine

/-! Register fields that name no scalar register -/

theorem regsOk_sss_iff (f : RFmt) : regsOk f .s .s .s .any = true ↔ namesDAB f := by
  simp [regsOk, RKind.ok, and_assoc]

theorem regsOk_ssss_iff (f : RFmt) : regsOk f .s .s .s .s = true ↔ namesDABC f := by
  simp [regsOk, RKind.ok, and_assoc]

theorem regsOk_ss_iff (f : RFmt) : regsOk f .s .s .any .any = true ↔ namesDA f := by
  simp [regsOk, RKind.ok]

/-- An instruction that tests its register fields first takes ILLEGAL_INSTR where they are refused (R203, R242). -/
theorem exec_regsBad {s : State} {n k : Nat} {c : Instr} {w : EngWord} {ok : Bool} {body : Mod → Iss → Res} (hp : s.core.ptPending k = false)
    (hok : ¬ ok = true) (hw : c.word = some w)
    (he : exec c s = run (fun m => m.issue n w (fun m x => if ok then body m x else .fault m x.illegal)) s)
    (h : s.Next c n k) : exec c s = .next (s.faulted k (s.illegal k)) := by
  refine exec_next s n k c w _ _ h hw he ?_
  rw [if_neg hok]
  exact settle_illegal s k n hp

/-! s0 -/

@[simp] theorem Engine.getS_zero (e : Engine) : e.getS 0 = 0#64 := if_pos rfl
@[simp] theorem Engine.setS_zero (e : Engine) (v : W64) : e.setS 0 v = e := if_pos rfl

/-- A scalar result in s0 changes the pc and the loops alone. -/
theorem State.wroteS_zero (s : State) (k : Nat) (v : W64) : s.wroteS k 0#6 v = s.passed k := by
  rw [State.wroteS, BitVec.toNat_zero, Engine.setS_zero, State.passed]

theorem exec_add {s : State} {n k : Nat} {f : RFmt} (hf : namesDAB f) (h : s.Next (.add n f) n k) :
    exec (.add n f) s = .next (s.wroteS k f.d ((s.eng k).getS f.a.toNat + (s.eng k).getS f.b.toNat)) := by
  refine exec_next s n k _ _ _ _ h rfl rfl ?_
  rw [scalarRR, if_pos (regsOk_sss f hf)]
  exact settle_putS s k n h.running.exists_ f.d _

/-- With s0 as its second source, ADD copies its first. -/
theorem exec_add_zero {s : State} {n k : Nat} {f : RFmt} (hf : namesDAB f) (hb : f.b = 0#6) (h : s.Next (.add n f) n k) :
    exec (.add n f) s = .next (s.wroteS k f.d ((s.eng k).getS f.a.toNat)) := by
  rw [exec_add hf h, hb, BitVec.toNat_zero, Engine.getS_zero, BitVec.add_zero]

/-! A register read after a write of it -/

theorem getD_set_same {α : Type} {l : List α} {r : Nat} (h : r < l.length) (x d : α) : (l.set r x).getD r d = x := by
  rw [List.getD_eq_getElem?_getD, List.getElem?_set_self h, Option.getD_some]

section
variable {e : Engine} {r : Nat}

theorem Engine.getS_setS_same (h0 : 0 < r) (h : r < e.s.length) (x : W64) : (e.setS r x).getS r = x := by
  rw [Engine.setS, Engine.getS, if_neg (Nat.ne_of_gt h0), if_neg (Nat.ne_of_gt h0)]
  exact getD_set_same h x _

theorem Engine.getV_setV_same (h : r < e.v.length) (y : List W32) : (e.setV r y).getV r = y := getD_set_same h y _
theorem Engine.getP_setP_same (h : r < e.p.length) (y : BitVec 128) : (e.setP r y).getP r = y := getD_set_same h y _
theorem Engine.getLa_setLa_same (h : r < e.la.length) (y : LongAcc) : (e.setLa r y).getLa r = y := getD_set_same h y _
theorem Engine.getTile_setTile_same (h : r < e.acc.length) (y : Option Tile) : (e.setTile r y).getTile r = y := getD_set_same h y _
theorem Engine.getTag_setTag_same (h : r < e.tags.length) (y : Tag) : (e.setTag r y).getTag r = y := getD_set_same h y _

end

/-- Settles O2: the refusal of register fields for each shape that tests them, ADD with s0 as source and as destination, and each kind of register read
after a write. -/
theorem scalarRegisters : Obligations.ScalarRegisters := by
  refine ⟨?badFields, ?zero, ?readBack⟩
  case badFields =>
    intro s n k f hp bad
    refine ⟨fun hf => ?dab, fun hf => ?dabc, fun hf => ?da⟩
    case dab =>
      have hok := mt (regsOk_sss_iff f).1 hf
      and_intros <;> exact exec_regsBad hp hok rfl rfl
    case dabc => exact exec_regsBad hp (mt (regsOk_ssss_iff f).1 hf) rfl rfl
    case da =>
      have hok := mt (regsOk_ss_iff f).1 hf
      exact ⟨exec_regsBad hp hok rfl rfl, exec_regsBad hp hok rfl rfl⟩
  case zero =>
    intro s n k f hf hd hb
    refine ⟨fun h => ?_, fun r hr g hgd hga hgb h => ?_⟩
    · rw [exec_add_zero hf hb h, hd, State.wroteS_zero]
    · obtain ⟨-, ha, -⟩ := hf
      have hg : namesDAB g := ⟨hgd ▸ hr, hga ▸ ha, hgb ▸ (by decide : isS 0#6)⟩
      rw [exec_add_zero hg hgb h, hgd, hga]
  case readBack =>
    intro e r x
    exact ⟨e.getS_zero, e.setS_zero x, fun h0 h => Engine.getS_setS_same h0 h x, Engine.getV_setV_same, Engine.getP_setP_same,
      Engine.getLa_setLa_same, Engine.getTile_setTile_same, Engine.getTag_setTag_same, fun h y => getD_set_same h y _⟩

end Sys2Proof.Machine
end
